-- ==== Sys2Proof/Word.lean ====
section
/-! DEFINITION. The value types of the core: unsigned bit vectors of a stated width, bit 0 least significant
(00_scope.md R8). Arithmetic on them wraps (R9, 40_datapath.md R90). -/

namespace Sys2Proof

/-- `STATE`, `INC` and each operand of NEW: `STATE_W = INC_W = SEED_W = 64` (R5). -/
abbrev Word := BitVec 64

/-- A GENERATE result: `OUT_W = 32` (R5). -/
abbrev Out := BitVec 32

/-- A rotate amount: `ROT_W = 5` (R5). -/
abbrev Rot := BitVec 5

/-- The opcode field: `OP_W = 2` (R5). -/
abbrev Op := BitVec 2

/-- The command word CW: `CW_W = 130` (R5, 30_encoding.md R61). -/
abbrev CmdWord := BitVec 130

end Sys2Proof
end

