-- ==== Sys2Proof/Config.lean ====
section
/-! DEFINITION. The fixed parameters of the core (00_scope.md R5 to R7). None is free: the spec leaves no value open,
so no constant here is opaque. -/

namespace Sys2Proof.Config

/-- `MUL`, the LCG multiplier, as the source writes it in decimal (R6). -/
def mul : Word := 6364136223846793005#64

/-- The inverse of `MUL` modulo 2^64 (R6). No command uses it; it serves `prevState` alone. -/
def mulInv : Word := 0xc097ef87329e28a5#64

/-- `DEFAULT_STATE` (R7). -/
def defaultState : Word := 0x853c49e6748fea9b#64

/-- `DEFAULT_INC` (R7). -/
def defaultInc : Word := 0xda3e39cb94b95bdb#64

/-- `XSH_A`, the first right shift of the xorshift (R5). -/
def xshA : Nat := 18

/-- `XSH_B`, the second right shift of the xorshift (R5). -/
def xshB : Nat := 27

/-- `ROT_SHIFT`, where the rotate amount begins (R5). -/
def rotShift : Nat := 59

end Sys2Proof.Config
end

