-- ==== Sys2Proof/Machine/Datapath.lean ====
section
/-! DEFINITION. The combinational functions of 40_datapath.md: pure, total, without flags. -/

namespace Sys2Proof.Machine

/-- `MULADD64(a, m, c) = (a *64 m) +64 c`, the wrapping multiply-add (R80). The product commutes; the constant factor
`m` stands first because Lean's definitional unfolding of a product recurses on its second factor. -/
def mulAdd64 (a m c : Word) : Word := m * a + c

/-- `INC_DERIVE(initseq)` (R81): bit 63 is shifted out and bit 0 forced to 1. -/
def incDerive (initseq : Word) : Word := (initseq <<< 1) ||| 1#64

/-- `XSH32(s)` (R82). -/
def xsh32 (s : Word) : Out := (((s >>> Config.xshA) ^^^ s) >>> Config.xshB).setWidth 32

/-- `ROT5(s) = s[63:59]` (R83). -/
def rot5 (s : Word) : Rot := s.extractLsb' Config.rotShift 5

/-- `rotr32(x, r)`, written as R84 writes it: the `mod 32` makes a rotation by 0 the identity. -/
def rotr32 (x : Out) (r : Rot) : Out := (x >>> r.toNat) ||| (x <<< ((32 - r.toNat) % 32))

/-- `PERMUTE32(s)`, the output permutation (R85). -/
def permute32 (s : Word) : Out := rotr32 (xsh32 s) (rot5 s)

/-- `NEXT_STATE(s, inc)`, the LCG recurrence (R86). -/
def nextState (s inc : Word) : Word := mulAdd64 s Config.mul inc

/-- `SEED_STATE(initstate, inc)`, the state a NEW constructs (R87). -/
def seedState (initstate inc : Word) : Word := mulAdd64 (inc + initstate) Config.mul inc

/-- `NEXT_STATE^j(s, inc)`: `j` applications of `NEXT_STATE(·, inc)` (42_step.md R122). -/
def nextStateIter (s inc : Word) : Nat → Word
  | 0 => s
  | j + 1 => nextState (nextStateIter s inc j) inc

/-- `PREV_STATE(s', inc)`, the inverse of `NEXT_STATE(·, inc)` (R89). No command computes it. -/
def prevState (s' inc : Word) : Word := Config.mulInv * (s' - inc)

end Sys2Proof.Machine
end

