-- ==== Sys2Proof/Machine/State.lean ====
section
/-! DEFINITION. The state as plain data, its value after reset, and the (empty) reasons to stop. -/

namespace Sys2Proof.Machine

/-- "A model's fault type for this core is empty" (60_exceptions.md R150). No constructor, so no step faults. -/
inductive Fault where
  deriving DecidableEq, Repr

/-- Reasons to refuse. The spec backs none: every command word is legal (R65) and every step is total (R150). -/
inductive Refusal where
  /-- An instruction without a meaning yet, raised by exec's arm alone (safe). No arm of this model raises it. -/
  | notModelled (mnemonic : String)
  deriving DecidableEq, Repr

/-- What the host drives at one rising edge of `clk`: the ports `rst` and `cmd` (30_encoding.md R60). Both carry defined
levels (92_eei_decisions.md D20). -/
structure PortInput where
  /-- `rst`, synchronous and active high. -/
  rst : Bool
  /-- `cmd`, the command word CW. -/
  cmd : CmdWord
  deriving DecidableEq, Repr

/-- The core's two registers (10_state.md R20), and three fields of the model's own that are no core state (R28): the
host's side of the ports and what a run is observed by. DESIGN CHOICE, log entry 1. -/
structure State where
  /-- `STATE`, the LCG state (R21). -/
  state : Word
  /-- `INC`, the LCG increment and stream select (R22). -/
  inc : Word
  /-- The model's own: what the host will present, the next edge first (70_reset_and_hazards.md R190, R192). -/
  inputs : List PortInput
  /-- The model's own: the response of the last step (30_encoding.md R68). -/
  rsp : Option Out
  /-- The model's own: the non-none responses so far, in step order (70_reset_and_hazards.md R192). -/
  responses : List Out
  deriving DecidableEq, Repr

/-- The machine right after reset (10_state.md R29, 70_reset_and_hazards.md R180). The model's own fields hold nothing
(DESIGN CHOICE, log entry 4). -/
def State.reset : State where
  state := Config.defaultState
  inc := Config.defaultInc
  inputs := []
  rsp := none
  responses := []

end Sys2Proof.Machine
end

