-- ==== Sys2Proof/Machine/Ops.lean ====
section
/-! DEFINITION. The named operations over the two registers and the response. There is no memory (20_memory.md R40) and
no trap to take or return from (60_exceptions.md R150, R153, R154), so there is no operation for them. -/

namespace Sys2Proof.Machine

/-- `STATE <- v` (00_scope.md R10). -/
def State.setState (s : State) (v : Word) : State := { s with state := v }

/-- `INC <- v` (00_scope.md R10). -/
def State.setInc (s : State) (v : Word) : State := { s with inc := v }

/-- `respond(v)` (00_scope.md R10): the step's response is `v`, and the observation gains it (R68, R192). -/
def State.respond (s : State) (v : Out) : State := { s with rsp := some v, responses := s.responses ++ [v] }

/-- A command that does not execute `respond` has no response (00_scope.md R10, 30_encoding.md R68). -/
def State.noRespond (s : State) : State := { s with rsp := none }

/-- Load the default constants, the one path DEFAULT and reset share (41_construction.md R105,
70_reset_and_hazards.md R180). -/
def State.loadDefault (s : State) : State := (s.setState Config.defaultState).setInc Config.defaultInc

/-- The reset step (70_reset_and_hazards.md R180): the default pair and no response, whatever `cmd` carries (R181). -/
def State.resetStep (s : State) : State := s.loadDefault.noRespond

end Sys2Proof.Machine
end

