-- ==== Sys2Proof/Machine/Construct.lean ====
section
/-! DEFINITION. The construction commands NEW and DEFAULT (41_construction.md). -/

namespace Sys2Proof.Machine

/-- NEW: both registers from the operands alone, no response (R100). -/
def execNew (initstate initseq : Word) (s : State) : Host.Outcome State Fault Refusal :=
  let inc := incDerive initseq
  .next (((s.setInc inc).setState (seedState initstate inc)).noRespond)

/-- DEFAULT: the two literal constants, no response (R105). -/
def execDefault (s : State) : Host.Outcome State Fault Refusal := .next s.loadDefault.noRespond

end Sys2Proof.Machine
end

