-- ==== Sys2Proof/Machine/Generate.lean ====
section
/-! DEFINITION. The generate step (42_step.md). -/

namespace Sys2Proof.Machine

/-- GENERATE: response and new `STATE` are both computed from the captured `STATE`; `INC` is kept (R120, R124). -/
def execGenerate (s : State) : Host.Outcome State Fault Refusal :=
  .next ((s.setState (nextState s.state s.inc)).respond (permute32 s.state))

end Sys2Proof.Machine
end

