-- ==== Sys2Proof/Machine/Idle.lean ====
section
/-! DEFINITION. IDLE (43_idle.md). -/

namespace Sys2Proof.Machine

/-- IDLE writes no register and gives no response (R140). -/
def execIdle (s : State) : Host.Outcome State Fault Refusal := .next s.noRespond

end Sys2Proof.Machine
end

