-- ==== Sys2Proof/Syntax.lean ====
section
/-! DEFINITION. The commands: one constructor per row of spec/opcode_table.json (30_encoding.md R64). -/

namespace Sys2Proof

/-- A command. The fields a command ignores (R65) are no part of it. -/
inductive Instr where
  /-- IDLE, 43_idle.md R140. -/
  | idle
  /-- NEW, 41_construction.md R100: A is `initstate`, B is `initseq`. -/
  | new (initstate initseq : Word)
  /-- DEFAULT, 41_construction.md R105. -/
  | default
  /-- GENERATE, 42_step.md R120. -/
  | generate
  deriving DecidableEq, Repr

end Sys2Proof
end

