-- ==== Sys2Proof/Machine/Dispatch.lean ====
section
/-! DEFINITION. The one match from a command to its meaning. -/

namespace Sys2Proof.Machine

/-- The effect of a command on the state. -/
def exec (i : Instr) (s : State) : Host.Outcome State Fault Refusal :=
  match i with
  | .idle => Sys2Proof.Machine.execIdle s
  | .new initstate initseq => Sys2Proof.Machine.execNew initstate initseq s
  | .default => Sys2Proof.Machine.execDefault s
  | .generate => Sys2Proof.Machine.execGenerate s

end Sys2Proof.Machine
end

