-- ==== Sys2Proof/WellFormed.lean ====
section
/-! DEFINITION. Well-formedness. Every command with operands of 64 bits is legal (30_encoding.md R65, 41_construction.md
R100), and the type `Word` already holds nothing wider; what can be ill-formed is an operand an assembler is given as a
number (R69). -/

namespace Sys2Proof

/-- "Each must be below 2^64" (30_encoding.md R69). -/
def operandInRange (n : Nat) : Bool := n < 2 ^ 64

/-- A command is well-formed when its operands fit the fields of the command word (R61, R63). -/
def Instr.wellFormed : Instr → Bool
  | .idle => true
  | .new initstate initseq => operandInRange initstate.toNat && operandInRange initseq.toNat
  | .default => true
  | .generate => true

end Sys2Proof
end

