-- ==== Sys2Proof/Decode.lean ====
section
/-! DEFINITION. The command word: fields, decoder and encoder (30_encoding.md R61 to R66). Decoding is total and has no
refusal arm (R65). -/

namespace Sys2Proof

/-- `CW.OP = CW[1:0]` (R61). -/
def opField (w : CmdWord) : Op := w.extractLsb' 0 2

/-- `CW.A = CW[65:2]` (R61). -/
def aField (w : CmdWord) : Word := w.extractLsb' 2 64

/-- `CW.B = CW[129:66]` (R61). -/
def bField (w : CmdWord) : Word := w.extractLsb' 66 64

/-- The command a word carries, chosen by `OP` alone (R64, R65). -/
def decode (w : CmdWord) : Instr :=
  if opField w = 0b00#2 then .idle
  else if opField w = 0b01#2 then .new (aField w) (bField w)
  else if opField w = 0b10#2 then .default
  else .generate

/-- The opcode of a command (R64). -/
def opcode : Instr → Op
  | .idle => 0b00#2
  | .new _ _ => 0b01#2
  | .default => 0b10#2
  | .generate => 0b11#2

/-- The A field a command is canonically encoded with (R66). -/
def operandA : Instr → Word
  | .idle => 0#64
  | .new initstate _ => initstate
  | .default => 0#64
  | .generate => 0#64

/-- The B field a command is canonically encoded with (R66). -/
def operandB : Instr → Word
  | .idle => 0#64
  | .new _ initseq => initseq
  | .default => 0#64
  | .generate => 0#64

/-- The canonical word of a command (R66). -/
def encode (i : Instr) : CmdWord :=
  (opcode i).setWidth 130 ||| ((operandA i).setWidth 130 <<< 2) ||| ((operandB i).setWidth 130 <<< 66)

/-- A word of spec/opcode_table.json as the command port carries it: the low `nbits` bits of `w`, of which the port has
130 (R60). DESIGN CHOICE, log entry 5: a table row counted in whole bytes has bits the port lacks, and they are dropped. -/
def portWord (nbits w : Nat) : CmdWord := BitVec.ofNat 130 (w % 2 ^ nbits)

/-- The decoder on a word numbered as spec/opcode_table.json numbers it. It never refuses (R65). -/
def decodeTableWord (nbits w : Nat) : Option Instr := some (decode (portWord nbits w))

end Sys2Proof
end

