-- ==== Sys2Proof/Machine/Port.lean ====
section
/-! DEFINITION. The ports of 30_encoding.md R60: what the host drives in the current cycle, and the two outputs, which
are driven combinationally from `STATE` and `OP` before the edge (R68). -/

namespace Sys2Proof.Machine

/-- The quiescent port: `rst = 0` and the all-zero word, which is IDLE (R64, R66). -/
def PortInput.quiet : PortInput := ⟨false, 0#130⟩

/-- The port input of a command word with `rst = 0`. -/
def PortInput.command (w : CmdWord) : PortInput := ⟨false, w⟩

/-- The ports `rst` and `cmd` in the current cycle. A host with nothing to present makes no call, and "the absence of a
call is IDLE" (R60). DEDUCED, log entry 2. -/
def State.port (s : State) : PortInput := s.inputs.headD PortInput.quiet

/-- The inputs after the current edge. -/
def State.takeInput (s : State) : State := { s with inputs := s.inputs.tail }

/-- The host presents `p` at the next edge, before all it had left to present. -/
def State.present (s : State) (p : PortInput) : State := { s with inputs := p :: s.inputs }

/-- `rsp_valid`: 1 exactly in a cycle whose command is GENERATE and whose `rst` is 0 (R60, R68). -/
def State.rspValid (s : State) : Bool := !s.port.rst && opField s.port.cmd == 0b11#2

/-- `rsp_data`: the GENERATE result while `rsp_valid = 1`, and 0 otherwise (R60, R68). -/
def State.rspData (s : State) : Out := if s.rspValid then permute32 s.state else 0#32

end Sys2Proof.Machine
end

