-- ==== Sys2Proof/Machine/Step.lean ====
section
/-! DEFINITION. One step: one accepted command or one reset (10_state.md R27), at one rising edge of `clk`
(70_reset_and_hazards.md R187). -/

namespace Sys2Proof.Machine

/-- The core samples the ports. Reset wins over the command and discards it (R181); otherwise the command word is
decoded and performed. -/
def step (s : State) : Host.Outcome State Fault Refusal :=
  if s.port.rst then .next s.takeInput.resetStep
  else exec (decode s.port.cmd) s.takeInput

/-- `s` with a host that presents the table word `w` at the very next edge, with `rst = 0`, and then all it had left to
present. The core stores no program (10_state.md R30), so this stands for the host's own act (log entry 3). -/
def State.withFetchWord (s : State) (nbits w : Nat) : State := s.present (.command (portWord nbits w))

end Sys2Proof.Machine
end

