-- ==== Sys2Proof/Machine/Assembler.lean ====
section
/-! DEFINITION. The assembler syntax of 30_encoding.md R69, over lists of characters. It is tooling: no rule of the core
depends on it (92_eei_decisions.md D19). What R69 leaves open is fixed in log entry 6. -/

namespace Sys2Proof.Machine

/-- What one line holds: a command, or the directive `.reset`. -/
inductive AsmItem where
  | command (i : Instr)
  | reset
  deriving DecidableEq, Repr

/-- Why an assembler rejects a line. -/
inductive AsmError where
  /-- The first word is no mnemonic and no directive. -/
  | unknownMnemonic
  /-- A line has more or fewer operands than its form, or an operand that is no unsigned literal. -/
  | badOperands
  /-- "An operand of 2^64 or more is an assembly error" (R69). -/
  | operandTooLarge
  deriving DecidableEq, Repr

/-- What a line or a program assembles to. -/
inductive AsmResult (α : Type) where
  | ok (a : α)
  | error (e : AsmError)
  deriving DecidableEq, Repr

/-- White space inside a line. -/
def isBlank (c : Char) : Bool := c == ' ' || c == '\t' || c == '\r'

/-- `cs` without blanks at either end. -/
def trimBlanks (cs : List Char) : List Char :=
  ((cs.dropWhile isBlank).reverse.dropWhile isBlank).reverse

/-- `cs` cut at every `sep`: one more part than there are separators. -/
def splitAtChar (sep : Char) : List Char → List (List Char)
  | [] => [[]]
  | c :: cs =>
    match splitAtChar sep cs with
    | [] => [[c]]
    | part :: parts => if c == sep then [] :: part :: parts else (c :: part) :: parts

/-- The value of a decimal or hexadecimal digit. -/
def digitValue (c : Char) : Option Nat :=
  let n := c.toNat
  if 48 ≤ n && n ≤ 57 then some (n - 48)
  else if 97 ≤ n && n ≤ 102 then some (n - 87)
  else if 65 ≤ n && n ≤ 70 then some (n - 55)
  else none

/-- Digits below `base`, most significant first, on top of the value `acc` read so far. -/
def readDigits (base : Nat) : Nat → List Char → Option Nat
  | acc, [] => some acc
  | acc, c :: cs =>
    match digitValue c with
    | some d => if d < base then readDigits base (acc * base + d) cs else none
    | none => none

/-- Digits of which `_` may separate groups (R69): no group is empty. -/
def readGroups (base : Nat) (cs : List Char) : Option Nat :=
  let groups := splitAtChar '_' cs
  if groups.all (fun g => !g.isEmpty) then readDigits base 0 groups.flatten else none

/-- An unsigned literal: decimal, or hexadecimal with `0x` (R69). -/
def readLiteral : List Char → Option Nat
  | '0' :: 'x' :: cs => readGroups 16 cs
  | cs => readGroups 10 cs

/-- An operand: a literal below 2^64. One out of range is rejected and not truncated (R69). -/
def readOperand (cs : List Char) : AsmResult Word :=
  match readLiteral (trimBlanks cs) with
  | none => .error .badOperands
  | some n => if operandInRange n then .ok (BitVec.ofNat 64 n) else .error .operandTooLarge

/-- The two operands of NEW, separated by a comma. -/
def readSeedPair (cs : List Char) : AsmResult AsmItem :=
  match splitAtChar ',' cs with
  | [a, b] =>
    match readOperand a, readOperand b with
    | .ok initstate, .ok initseq => .ok (.command (.new initstate initseq))
    | .error e, _ => .error e
    | .ok _, .error e => .error e
  | _ => .error .badOperands

/-- A form without operands. -/
def withoutOperands (item : AsmItem) (operands : List Char) : AsmResult AsmItem :=
  if operands.isEmpty then .ok item else .error .badOperands

/-- One statement: its first word, in any case, selects the form (R69). -/
def readStatement (cs : List Char) : AsmResult AsmItem :=
  let operands := trimBlanks (cs.dropWhile (fun c => !isBlank c))
  match (cs.takeWhile (fun c => !isBlank c)).map Char.toLower with
  | ['i', 'd', 'l', 'e'] => withoutOperands (.command .idle) operands
  | ['n', 'e', 'w'] => readSeedPair operands
  | ['d', 'e', 'f', 'a', 'u', 'l', 't'] => withoutOperands (.command .default) operands
  | ['g', 'e', 'n', 'e', 'r', 'a', 't', 'e'] => withoutOperands (.command .generate) operands
  | ['.', 'r', 'e', 's', 'e', 't'] => withoutOperands .reset operands
  | _ => .error .unknownMnemonic

/-- One line: a command, a directive, or nothing, and a comment from `;` to its end (R69). -/
def readLine (line : List Char) : AsmResult (Option AsmItem) :=
  match trimBlanks (line.takeWhile (fun c => c != ';')) with
  | [] => .ok none
  | cs =>
    match readStatement cs with
    | .ok item => .ok (some item)
    | .error e => .error e

/-- The one port input an item stands for: the canonical word of a command, or one edge with `rst = 1` (R66, R69). The
word beside `rst` is discarded (70_reset_and_hazards.md R181), so any would do. -/
def AsmItem.portInput : AsmItem → PortInput
  | .command i => .command (encode i)
  | .reset => ⟨true, 0#130⟩

/-- The lines of a program, in order; the first error stops it. -/
def assembleLines : List (List Char) → AsmResult (List PortInput)
  | [] => .ok []
  | line :: lines =>
    match readLine line, assembleLines lines with
    | .ok none, rest => rest
    | .ok (some item), .ok ps => .ok (item.portInput :: ps)
    | .ok (some _), .error e => .error e
    | .error e, _ => .error e

/-- A program text to the port inputs it stands for. -/
def assemble (text : List Char) : AsmResult (List PortInput) := assembleLines (splitAtChar '\n' text)

end Sys2Proof.Machine
end

