-- ==== Sys2Proof/Machine/Run.lean ====
section
/-! DEFINITION. A run and its observation (70_reset_and_hazards.md R192). -/

namespace Sys2Proof.Machine

/-- A launch state named as an explicit premise (70_reset_and_hazards.md R182): any two register values, an even `INC` too,
and nothing else. The other launch state is `State.reset`. -/
def State.launch (st inc : Word) : State := { State.reset with state := st, inc := inc }

/-- `k` steps from `s`, by the host's own `run` over this core. -/
def runSteps (k : Nat) (s : State) : Host.Outcome State Fault Refusal := Host.Core.run core k s

/-- The run of R192: from the launch state `s` the host presents `xs`, and the run ends after the last of them. -/
def runInputs (xs : List PortInput) (s : State) : Host.Outcome State Fault Refusal :=
  runSteps xs.length { s with inputs := xs }

/-- The observation of a run (R192): the non-none responses in step order, with the final `(STATE, INC)`. -/
def State.observation (s : State) : List Out × Word × Word := (s.responses, s.state, s.inc)

/-- An input that is an IDLE step: `rst = 0` and a word that decodes to IDLE, whatever its A and B hold (R140). -/
def PortInput.isIdle (p : PortInput) : Bool := !p.rst && decode p.cmd == .idle

/-- An input that is a GENERATE step. -/
def PortInput.isGenerate (p : PortInput) : Bool := !p.rst && decode p.cmd == .generate

/-- An input after which both registers no longer depend on what they held: a reset, a NEW or a DEFAULT
(41_construction.md R107, 70_reset_and_hazards.md R180). -/
def PortInput.constructs (p : PortInput) : Bool := p.rst || !(p.isIdle || p.isGenerate)

end Sys2Proof.Machine
end

