-- ==== Sys2Proof/Safety.lean ====
section
/-! DEFINITION. The invariant of the model, and what a safe run is. -/

namespace Sys2Proof.Machine

/-- `INC[0] = 1`, the one property of `(STATE, INC)` a model may assume (10_state.md R23, R32). -/
abbrev State.IncOdd (s : State) : Prop := s.inc.getLsbD 0 = true

/-- The last step's response, where it has one, is the newest of the observation (30_encoding.md R68,
70_reset_and_hazards.md R192). This is about the model's own fields (log entry 1). -/
abbrev State.ResponseRecorded (s : State) : Prop := ∀ v ∈ s.rsp, s.responses.getLast? = some v

/-- The invariant every step keeps. -/
abbrev State.Inv (s : State) : Prop := s.IncOdd ∧ s.ResponseRecorded

/-- The state an outcome goes on in, if it does. -/
def nextOf : Host.Outcome State Fault Refusal → Option State
  | .next s => some s
  | .fault _ => none
  | .refused _ => none

/-- A run of `k` steps that stops at no fault and no refusal: every run of this core is one (60_exceptions.md R150). -/
def SafeRun (k : Nat) (s : State) : Prop := ∃ t, runSteps k s = .next t

end Sys2Proof.Machine
end

