-- ==== Sys2Proof/Certificates/Slice0/Obligations.lean ====
section
/-! DEFINITION. The statements for the provers. Each docstring names the rule of spec/ it formalises. A statement that
rests on an inference the spec marks `[derived: ...]` quotes that sentence and names its place; one that speaks of the
model's own fields names log entry 1. -/

open Sys2Proof Sys2Proof.Machine

/-! ### The command word (30_encoding.md) -/

/-- R61: `CW = {B, A, OP}`, and as a number `CW = OP + A * 2^2 + B * 2^66`. -/
def Obligations.CommandWordIsItsThreeFields : Prop :=
  ∀ w : CmdWord, w = bField w ++ aField w ++ opField w ∧
    w.toNat = (opField w).toNat + (aField w).toNat * 2 ^ 2 + (bField w).toNat * 2 ^ 66

/-- R61, R63, R64, R65: the word is its three fields; its two low bits select the command, whatever the other bits hold; NEW
takes A and B exactly as they stand, and the one transformation of an operand is NEW's own `(initseq << 1) | 1`; and the
decoder on a table word answers for every word of 130 bits. -/
def Obligations.OpcodeAloneSelectsCommand : Prop :=
  ∀ w : CmdWord,
    w.toNat = (opField w).toNat + (aField w).toNat * 2 ^ 2 + (bField w).toNat * 2 ^ 66 ∧
    (decode w = .idle ↔ w.toNat % 4 = 0) ∧
    (∀ a b, decode w = .new a b → a = aField w ∧ b = bField w) ∧
    (∀ a b, decode w = .new a b ↔ w.toNat = 1 + a.toNat * 2 ^ 2 + b.toNat * 2 ^ 66) ∧
    (decode w = .default ↔ w.toNat % 4 = 2) ∧
    (decode w = .generate ↔ w.toNat % 4 = 3) ∧
    decodeTableWord 130 w.toNat = some (decode w) ∧
    (∀ (s : State) (a b : Word), decode w = .new a b →
      ∃ t, exec (decode w) s = .next t ∧ t.inc = (bField w <<< 1) ||| 1#64)

/-- R66: the word of each command, A and B zero where the command ignores them; an assembler emits that word; and the
word a decoder accepts in any form means what its canonical form means. -/
def Obligations.CanonicalWordOfEachCommand : Prop :=
  encode .idle = 0x0#130 ∧ encode .default = 0x2#130 ∧ encode .generate = 0x3#130 ∧
    (∀ a b : Word, encode (.new a b) =
      (0b01#2).setWidth 130 ||| (a.setWidth 130 <<< 2) ||| (b.setWidth 130 <<< 66)) ∧
    (∀ i, (AsmItem.command i).portInput = ⟨false, encode i⟩) ∧
    (∀ w, decode (encode (decode w)) = decode w)

/-- From R61, R64 and R66: every command is well formed, and its canonical word decodes back to it with both operands
whole. -/
def Obligations.DecodeOfEncodeIsIdentity : Prop :=
  ∀ i : Instr, i.wellFormed = true ∧ decode (encode i) = i

/-- From R65 and R66: encoding what a word decodes to gives the word back for NEW, and otherwise the word with its ignored
fields cleared. -/
def Obligations.EncodeOfDecodeIsCanonical : Prop :=
  ∀ w : CmdWord, encode (decode w) = if opField w = 0b01#2 then w else w &&& 3#130

/-- 95_test_vectors.md section 2.8, derived there from the rules: what these eight words decode to. -/
def Obligations.DecodedWordsOfTheSpec : Prop :=
  decode 0x000000000000000000000000000000000#130 = .idle ∧
  decode 0x00000000000000000000000000000048c#130 = .idle ∧
  decode 0x0000000000000001c0000000000000015#130 = .new 0x5#64 0x7#64 ∧
  decode 0x000000000000000d800000000000000a9#130 = .new 0x2a#64 0x36#64 ∧
  decode 0x000000000000000000000000000000002#130 = .default ∧
  decode 0x3fffffffffffffffffffffffffffffffe#130 = .default ∧
  decode 0x000000000000000000000000000000003#130 = .generate ∧
  decode 0x3ffffffffffffffffffffffffffffffff#130 = .generate

/-- From R65, "any value there has no effect": two words of one opcode other than NEW's make the same step of the same
state. -/
def Obligations.IgnoredFieldsHaveNoEffect : Prop :=
  ∀ (s : State) (w w' : CmdWord), w.toNat % 4 = w'.toNat % 4 → w.toNat % 4 ≠ 1 →
    step (s.present ⟨false, w⟩) = step (s.present ⟨false, w'⟩)

/-! ### The datapath (40_datapath.md) -/

/-- R80: the low 64 bits of the exact product and sum, and the corner cases the rule lists. -/
def Obligations.MultiplyAddWraps : Prop :=
  (∀ a m c : Word, mulAdd64 a m c = a * m + c ∧
    (mulAdd64 a m c).toNat = (a.toNat * m.toNat + c.toNat) % 2 ^ 64) ∧
  (∀ c, mulAdd64 0#64 Config.mul c = c) ∧
  (∀ a, mulAdd64 a Config.mul 0#64 = a * Config.mul) ∧
  mulAdd64 0xffffffffffffffff#64 Config.mul 0#64 = 0xa7ae0bd2b36a80d3#64 ∧
  mulAdd64 0x8000000000000000#64 Config.mul 0#64 = 0x8000000000000000#64 ∧
  mulAdd64 1#64 Config.mul 0#64 = 0x5851f42d4c957f2d#64

/-- R81: `{initseq[62:0], 1}`, the ignored bit 63, the forced bit 0, and the corner cases and example of the rule. -/
def Obligations.IncrementDerivation : Prop :=
  (∀ x : Word, incDerive x = (x <<< 1) ||| 1#64 ∧ incDerive x = x.extractLsb' 0 63 ++ 1#1 ∧
    incDerive x = incDerive (x ^^^ 0x8000000000000000#64) ∧ (incDerive x).getLsbD 0 = true) ∧
  incDerive 0#64 = 1#64 ∧ incDerive 0x8000000000000000#64 = 1#64 ∧
  incDerive 0xffffffffffffffff#64 = 0xffffffffffffffff#64 ∧
  incDerive 0x7fffffffffffffff#64 = 0xffffffffffffffff#64 ∧
  incDerive 0x315bfae48ade2146#64 = 0x62b7f5c915bc428d#64

/-- 40_datapath.md section 4, the bit form of XSH32: "Bit i of the result is `s[i+27] ^ s[i+45]` for i from 0 to 18. It is
`s[i+27]` for i from 19 to 31 [derived: from the definition ...]". The first clause is the definition itself. -/
def Obligations.XorshiftBits : Prop :=
  ∀ s : Word, xsh32 s = (((s >>> 18) ^^^ s) >>> 27).setWidth 32 ∧
    ∀ i, i < 32 → (xsh32 s).getLsbD i =
      if i ≤ 18 then (s.getLsbD (i + 27) ^^ s.getLsbD (i + 45)) else s.getLsbD (i + 27)

/-- R83: the five top bits, as a number in 0..31, as the shift and truncation the source writes, and 0 exactly when they
are all zero; with the corner cases and example of the rule. -/
def Obligations.RotateAmountIsTopFiveBits : Prop :=
  (∀ s : Word, (rot5 s).toNat = s.toNat / 2 ^ 59 ∧ ((s >>> 59).setWidth 32 : BitVec 32).toNat = (rot5 s).toNat ∧
    (rot5 s).toNat ≤ 31 ∧ (rot5 s = 0#5 ↔ s.extractLsb' 59 5 = 0#5)) ∧
  rot5 0xffffffffffffffff#64 = 31#5 ∧ rot5 0x853c49e6748fea9b#64 = 16#5

/-- R84: bit i of the result is `x[(i + r) mod 32]`; the shift form with its `mod 32`; and the corner cases of the rule. -/
def Obligations.RotationIsCircular : Prop :=
  (∀ (x : Out) (r : Rot), (∀ i, i < 32 → (rotr32 x r).getLsbD i = x.getLsbD ((i + r.toNat) % 32)) ∧
    rotr32 x r = (x >>> r.toNat) ||| (x <<< ((32 - r.toNat) % 32))) ∧
  (∀ x : Out, rotr32 x 0#5 = x) ∧ (∀ x : Out, rotr32 x 31#5 = x.rotateLeft 1) ∧
  rotr32 0x80000001#32 1#5 = 0xc0000000#32 ∧ rotr32 0x12345678#32 4#5 = 0x81234567#32 ∧
  rotr32 0x12345678#32 31#5 = 0x2468acf0#32 ∧ rotr32 0xdeadbeef#32 16#5 = 0xbeefdead#32

/-- R85: the output permutation is the rotation of XSH32 by ROT5, it is XSH32 itself when the five top bits are zero, and
the corner cases and example of the rule. -/
def Obligations.OutputPermutation : Prop :=
  (∀ s : Word, permute32 s = rotr32 (xsh32 s) (rot5 s)) ∧
  (∀ s : Word, s.toNat < 2 ^ 59 → permute32 s = xsh32 s) ∧
  permute32 0#64 = 0#32 ∧ permute32 0xffffffffffffffff#64 = 0xfff00001#32 ∧
  permute32 0x0000000008000000#64 = 0x00000001#32 ∧ permute32 0x853c49e6748fea9b#64 = 0x152ca78d#32

/-- From R82 to R85: every bit of the output permutation, straight from the bits of `s`. It uses the bit form of XSH32,
which 40_datapath.md section 4 marks as derived. -/
def Obligations.OutputPermutationBits : Prop :=
  ∀ (s : Word) (i k : Nat), i < 32 → k = (i + s.toNat / 2 ^ 59) % 32 →
    (permute32 s).getLsbD i =
      if k ≤ 18 then (s.getLsbD (k + 27) ^^ s.getLsbD (k + 45)) else s.getLsbD (k + 27)

/-- R86: the LCG recurrence modulo 2^64, and the corner cases and example of the rule. -/
def Obligations.NextStateRecurrence : Prop :=
  (∀ s inc : Word, nextState s inc = mulAdd64 s Config.mul inc ∧
    (nextState s inc).toNat = (6364136223846793005 * s.toNat + inc.toNat) % 2 ^ 64) ∧
  (∀ inc, nextState 0#64 inc = inc) ∧
  nextState 0xffffffffffffffff#64 1#64 = 0xa7ae0bd2b36a80d4#64 ∧
  nextState 0x8000000000000000#64 1#64 = 0x8000000000000001#64 ∧
  nextState 0x853c49e6748fea9b#64 0xda3e39cb94b95bdb#64 = 0xc83015ca079f7e1a#64

/-- 40_datapath.md section 5, SEED_STATE: its formula modulo 2^64, its corner cases and example, and
"`SEED_STATE(initstate, inc) = NEXT_STATE(inc +64 initstate, inc)` [derived: from rules R80 and R86]". -/
def Obligations.SeedStateFormula : Prop :=
  (∀ initstate inc : Word, seedState initstate inc = nextState (inc + initstate) inc ∧
    (seedState initstate inc).toNat =
      (6364136223846793005 * (inc.toNat + initstate.toNat) + inc.toNat) % 2 ^ 64) ∧
  (∀ initstate inc : Word, inc + initstate = 0#64 → seedState initstate inc = inc) ∧
  seedState 0#64 1#64 = 0x5851f42d4c957f2e#64 ∧
  seedState 0xffffffffffffffff#64 1#64 = 1#64 ∧
  seedState 0xff30652539ebeaa9#64 0x62b7f5c915bc428d#64 = 0xb3c3dffddd27ff0b#64

/-- 40_datapath.md section 6, law 1, marked derived: "`NEXT_STATE(·, inc)` is a bijection on 64-bit values, because `MUL`
is odd. Its inverse is `PREV_STATE`". -/
def Obligations.NextStateIsInvertible : Prop :=
  ∀ inc : Word, (∀ s, prevState (nextState s inc) inc = s) ∧ (∀ s, nextState (prevState s inc) inc = s) ∧
    Function.Bijective (fun s => nextState s inc)

/-- 10_state.md section 4, marked derived: for a fixed `INC`, the map of NEW "is a bijection over `initstate`". -/
def Obligations.SeedingIsBijective : Prop :=
  ∀ inc : Word, Function.Bijective (fun initstate => seedState initstate inc)

/-- 41_construction.md section 1, marked derived: "NEW can select 2^63 distinct `INC` values, one per stream". Two
`initseq` give one `INC` exactly when their low 63 bits agree, and every odd value is some `INC`. -/
def Obligations.SeedSelectsTheStream : Prop :=
  (∀ x y : Word, incDerive x = incDerive y ↔ x.toNat % 2 ^ 63 = y.toNat % 2 ^ 63) ∧
  (∀ inc : Word, inc.toNat % 2 = 1 → ∃ x : Word, x.toNat < 2 ^ 63 ∧ incDerive x = inc)

/-- 40_datapath.md section 6, law 3, marked derived and from general knowledge: for an odd `inc` the sequence of states has
"period exactly 2^64". The spec lets a model use the period only with a proof of its own; no rule of the model rests on
it. -/
def Obligations.LcgHasFullPeriod : Prop :=
  ∀ (s inc : Word) (k : Nat), inc.getLsbD 0 = true → (nextStateIter s inc k = s ↔ 2 ^ 64 ∣ k)

/-- 40_datapath.md section 5, marked derived: one multiply-add serves both commands. "For NEW, the unit's operands are
`a = INC_DERIVE(B) +64 A` and `c = INC_DERIVE(B)`. For GENERATE, they are `a = STATE` and `c = INC`." -/
def Obligations.OneMultiplyAddServesBoth : Prop :=
  ∀ (s : State) (a b : Word),
    (∃ t, exec (.new a b) s = .next t ∧ t.state = mulAdd64 (incDerive b + a) Config.mul (incDerive b)) ∧
    (∃ t, exec .generate s = .next t ∧ t.state = mulAdd64 s.state Config.mul s.inc)

/-! ### NEW and DEFAULT (41_construction.md) -/

/-- R100, R103: for every operand pair and every state, NEW completes with both registers at the stated numbers, no
response, and all else unchanged; with the corner cases of the rule. -/
def Obligations.NewConstructsFromSeedPair : Prop :=
  ∀ s : State,
    (∀ a b : Word, exec (.new a b) s = .next { s with
      inc := BitVec.ofNat 64 (2 * b.toNat + 1),
      state := BitVec.ofNat 64 (6364136223846793005 * ((2 * b.toNat + 1) + a.toNat) + (2 * b.toNat + 1)),
      rsp := none }) ∧
    (∀ a b : Word, incDerive b + a = 0#64 →
      exec (.new a b) s = .next { s with inc := incDerive b, state := incDerive b, rsp := none }) ∧
    exec (.new 0#64 0#64) s = .next { s with inc := 1#64, state := 0x5851f42d4c957f2e#64, rsp := none } ∧
    exec (.new 0xffffffffffffffff#64 0xffffffffffffffff#64) s =
      .next { s with inc := 0xffffffffffffffff#64, state := 0x4f5c17a566d501a5#64, rsp := none } ∧
    exec (.new 0xffffffffffffffff#64 0#64) s = .next { s with inc := 1#64, state := 1#64, rsp := none }

/-- R101: `NEW a, b` and `NEW a, b ^ 0x8000000000000000` leave the same state, and the example of the rule. -/
def Obligations.TopSeedBitIsIgnored : Prop :=
  (∀ (s : State) (a b : Word), exec (.new a b) s = exec (.new a (b ^^^ 0x8000000000000000#64)) s) ∧
  (∀ s : State, exec (.new 0x123#64 0x8000000000000005#64) s =
      .next { s with inc := 0xb#64, state := 0x30ae0d70585c0721#64, rsp := none } ∧
    exec (.new 0x123#64 5#64) s =
      .next { s with inc := 0xb#64, state := 0x30ae0d70585c0721#64, rsp := none })

/-- R102: NEW leaves `INC[0] = 1` for every operand pair, from every state. -/
def Obligations.NewLeavesIncrementOdd : Prop :=
  ∀ (s : State) (a b : Word), ∃ t, exec (.new a b) s = .next t ∧ t.inc.getLsbD 0 = true ∧ t.inc.toNat % 2 = 1

/-- R105: DEFAULT loads the two literal constants from any state, gives no response and changes nothing else; it gives
the state reset gives; it is idempotent; and the two GENERATE responses after it are the source's. -/
def Obligations.DefaultLoadsConstants : Prop :=
  ∀ s : State,
    exec .default s = .next { s with
      state := 0x853c49e6748fea9b#64, inc := 0xda3e39cb94b95bdb#64, rsp := none } ∧
    (∀ cmd, step (s.present ⟨true, cmd⟩) = exec .default s) ∧
    (∀ t, exec .default s = .next t → exec .default t = .next t) ∧
    (∃ t, runInputs [⟨false, 2#130⟩, ⟨false, 3#130⟩, ⟨false, 3#130⟩] s = .next t ∧
      t.responses = s.responses ++ [0x152ca78d#32, 0x027c6003#32])

/-- 41_construction.md section 2: `NEW 0, 0` does not give the default pair, and "The default state can still be reached
by NEW ... [derived: from rule R100 ...]", with `initseq` bit 63 clear or set. -/
def Obligations.DefaultPairIsReachedByNew : Prop :=
  ∀ s : State, exec (.new 0#64 0#64) s ≠ exec .default s ∧
    exec (.new 0xcafef00dd15ea5e5#64 0x6d1f1ce5ca5caded#64) s = exec .default s ∧
    exec (.new 0xcafef00dd15ea5e5#64 0xed1f1ce5ca5caded#64) s = exec .default s

/-- R107: after one construction (or a reset), whatever two cores held before, every later input list gives them the
same responses and the same registers. -/
def Obligations.ConstructionIsDeterministic : Prop :=
  ∀ (s₁ s₂ : State) (p : PortInput) (xs : List PortInput), p.constructs = true →
    ∃ t₁ t₂ rs, runInputs (p :: xs) s₁ = .next t₁ ∧ runInputs (p :: xs) s₂ = .next t₂ ∧
      t₁.responses = s₁.responses ++ rs ∧ t₂.responses = s₂.responses ++ rs ∧
      t₁.state = t₂.state ∧ t₁.inc = t₂.inc

/-- 20_memory.md section 1: "NEW with the same operands, and DEFAULT, are idempotent: a repeat leaves the same state
[derived: ...]", and "GENERATE is not idempotent. Each one advances `STATE`": for an odd `INC`, the only kind a run reaches
(R32), a second GENERATE leaves another `STATE` than the first. -/
def Obligations.ConstructionIsIdempotent : Prop :=
  ∀ s : State,
    (∀ a b : Word, ∃ t, exec (.new a b) s = .next t ∧ exec (.new a b) t = .next t) ∧
    (∃ t, exec .default s = .next t ∧ exec .default t = .next t) ∧
    (∃ t u, exec .generate s = .next t ∧ exec .generate t = .next u ∧
      u.state = nextStateIter s.state s.inc 2 ∧ (s.IncOdd → t.state ≠ s.state ∧ u.state ≠ t.state))

/-! ### GENERATE (42_step.md) -/

/-- R120, R125: from every state, an even `INC` too, GENERATE completes: the response is `PERMUTE32` of the `STATE` before
the update, `STATE` becomes the stated number, `INC` and all else are unchanged; with the corner cases of the rule. -/
def Obligations.GenerateRespondsAndAdvances : Prop :=
  ∀ s : State,
    exec .generate s = .next { s with
      state := BitVec.ofNat 64 (6364136223846793005 * s.state.toNat + s.inc.toNat),
      rsp := some (rotr32 (xsh32 s.state) (rot5 s.state)),
      responses := s.responses ++ [rotr32 (xsh32 s.state) (rot5 s.state)] } ∧
    (s.state.extractLsb' 59 5 = 31#5 → ∃ t, exec .generate s = .next t ∧
      t.rsp = some ((xsh32 s.state).rotateLeft 1)) ∧
    (s.state = 0#64 → ∃ t, exec .generate s = .next t ∧ t.rsp = some 0#32 ∧ t.state = s.inc) ∧
    (s.state = 0xffffffffffffffff#64 → s.inc = 1#64 → ∃ t, exec .generate s = .next t ∧
      t.rsp = some 0xfff00001#32 ∧ t.state = 0xa7ae0bd2b36a80d4#64)

/-- R121: "When the top five bits of the captured `s` are all zero, the response equals `XSH32(s)` unrotated." -/
def Obligations.RotationByZeroGivesXorshift : Prop :=
  ∀ s : State, s.state.toNat < 2 ^ 59 → ∃ t, exec .generate s = .next t ∧
    t.rsp = some (xsh32 s.state) ∧ t.rsp = some ((((s.state >>> 18) ^^^ s.state) >>> 27).setWidth 32)

/-- R124, R186: output and update both read the captured value, so the response is not that of the new state; from the
default pair the two differ, and the wrong one is the source's second output. -/
def Obligations.ResponseIsFromCapturedState : Prop :=
  (∀ s : State, ∃ t, exec .generate s = .next t ∧ t.rsp = some (permute32 s.state) ∧
    t.state = nextState s.state s.inc) ∧
  (∀ s : State, s.state = Config.defaultState → s.inc = Config.defaultInc → ∃ t, exec .generate s = .next t ∧
    t.rsp = some 0x152ca78d#32 ∧ permute32 t.state = 0x027c6003#32)

/-- 42_step.md section 1, marked derived: "two cores with equal `STATE` and different `INC` return the same first
response. Their `STATE` values then differ by `inc1 -64 inc2`". The example is program P4's second responses. -/
def Obligations.ResponseIgnoresIncrement : Prop :=
  (∀ s₁ s₂ : State, s₁.state = s₂.state → ∃ t₁ t₂, exec .generate s₁ = .next t₁ ∧ exec .generate s₂ = .next t₂ ∧
    t₁.rsp = t₂.rsp ∧ t₁.state - t₂.state = s₁.inc - s₂.inc) ∧
  permute32 (nextState 0x853c49e6748fea9b#64 0xda3e39cb94b95bdb#64) = 0x027c6003#32 ∧
  permute32 (nextState 0x853c49e6748fea9b#64 1#64) = 0xf1e08205#32

/-- 42_step.md section 1, marked derived, the response sequence in closed form: "The j-th response, counting from 0, is
`PERMUTE32(NEXT_STATE^j(s0, inc))`", with any number of IDLEs between, from every state. -/
def Obligations.ResponseSequenceClosedForm : Prop :=
  ∀ (s : State) (xs : List PortInput), (∀ p ∈ xs, p.isGenerate = true ∨ p.isIdle = true) →
    ∃ t, runInputs xs s = .next t ∧
      t.state = nextStateIter s.state s.inc (xs.countP PortInput.isGenerate) ∧ t.inc = s.inc ∧
      t.responses = s.responses ++ (List.range (xs.countP PortInput.isGenerate)).map
        (fun j => permute32 (nextStateIter s.state s.inc j))

/-! ### IDLE (43_idle.md) -/

/-- R140: IDLE writes no register and gives no response, whatever A and B hold. -/
def Obligations.IdleChangesNothing : Prop :=
  ∀ s : State, exec .idle s = .next { s with rsp := none } ∧
    ∀ w : CmdWord, opField w = 0b00#2 → step (s.present ⟨false, w⟩) = .next { s with rsp := none }

/-- 43_idle.md, marked derived: "A command sequence with IDLE steps inserted gives the same non-`none` responses, in the
same order, as the sequence without them. It also ends in the same `(STATE, INC)`". -/
def Obligations.IdleStepsAreInvisible : Prop :=
  ∀ (s : State) (xs : List PortInput), ∃ t u, runInputs xs s = .next t ∧
    runInputs (xs.filter (fun p => !p.isIdle)) s = .next u ∧ t.observation = u.observation

/-! ### Reset, steps and runs (10_state.md, 30_encoding.md, 60_exceptions.md, 70_reset_and_hazards.md) -/

/-- R29: the reset values. -/
def Obligations.ResetValuesOfBothRegisters : Prop :=
  State.reset.state = 0x853c49e6748fea9b#64 ∧ State.reset.inc = 0xda3e39cb94b95bdb#64

/-- R180: at an edge with `rst = 1` both registers take the default constants, whatever they held, with `rsp_valid = 0` and
`rsp_data = 0` in that cycle and no response; all else is unchanged; and the first GENERATE after it responds
0x152ca78d. -/
def Obligations.ResetLoadsTheDefaultPair : Prop :=
  ∀ (s : State) (cmd : CmdWord),
    (s.present ⟨true, cmd⟩).rspValid = false ∧ (s.present ⟨true, cmd⟩).rspData = 0#32 ∧
    step (s.present ⟨true, cmd⟩) = .next { s with
      state := 0x853c49e6748fea9b#64, inc := 0xda3e39cb94b95bdb#64, rsp := none } ∧
    ∃ t, runInputs [⟨true, cmd⟩, ⟨false, encode .generate⟩] s = .next t ∧ t.rsp = some 0x152ca78d#32

/-- R181: a command word beside `rst = 1` is discarded: no word makes a difference or gets a response, and presented again
with `rst = 0` it is performed, from the default pair. -/
def Obligations.ResetDiscardsTheCommand : Prop :=
  ∀ (s : State) (cmd cmd' : CmdWord),
    step (s.present ⟨true, cmd⟩) = step (s.present ⟨true, cmd'⟩) ∧
    (∃ t, step (s.present ⟨true, cmd⟩) = .next t ∧ t.rsp = none ∧ t.responses = s.responses) ∧
    runInputs [⟨true, cmd⟩, ⟨false, cmd⟩] s = exec (decode cmd)
      { s with state := 0x853c49e6748fea9b#64, inc := 0xda3e39cb94b95bdb#64, inputs := [], rsp := none }

/-- 70_reset_and_hazards.md section 1, marked derived: "Holding `rst = 1` over several edges has the same effect as one
reset step", and the first GENERATE after it responds 0x152ca78d. -/
def Obligations.HeldResetIsOneReset : Prop :=
  ∀ (s : State) (xs : List PortInput), xs ≠ [] → (∀ p ∈ xs, p.rst = true) →
    ∃ t, runInputs xs s = .next t ∧ t.state = State.reset.state ∧ t.inc = State.reset.inc ∧ t.rsp = none ∧
      t.responses = s.responses ∧
      ∀ w, opField w = 0b11#2 → ∃ u, step (t.present ⟨false, w⟩) = .next u ∧ u.rsp = some 0x152ca78d#32

/-- From R27, R60 and R65: the step after the host presents a word with `rst = 0` is exec of the decoded command on the
state as it was (the input is taken, nothing else is added around exec); a table word is presented the same way; and with
nothing to present the step is IDLE's, the model's reading of "The absence of a call is IDLE" (log entry 2). -/
def Obligations.StepRunsTheDecodedCommand : Prop :=
  (∀ (s : State) (w : CmdWord) (ps : List PortInput), s.inputs = ⟨false, w⟩ :: ps →
    step s = exec (decode w) { s with inputs := ps }) ∧
  (∀ (s : State) (nbits n : Nat) (i : Instr), decodeTableWord nbits n = some i →
    step (s.withFetchWord nbits n) = exec i s) ∧
  (∀ s : State, s.inputs = [] → step s = exec .idle s)

/-- R150: the fault type is empty and the step is total, from every state and for every number of steps. -/
def Obligations.EveryStepCompletes : Prop :=
  IsEmpty Fault ∧ (∀ s : State, ∃ t, step s = .next t) ∧ (∀ (k : Nat) (s : State), SafeRun k s)

/-- R68: `rsp_valid` and `rsp_data` before the edge, and the step's response after it: `some` of the data in a step whose
command is GENERATE and whose `rst` is 0, and `none` in every other. -/
def Obligations.ResponsePortsMatchTheStep : Prop :=
  ∀ s : State,
    (s.rspValid = true ↔ s.port.rst = false ∧ decode s.port.cmd = .generate) ∧
    (s.rspValid = true → s.rspData = permute32 s.state) ∧ (s.rspValid = false → s.rspData = 0#32) ∧
    ∃ t, step s = .next t ∧ t.rsp = (if s.rspValid then some s.rspData else none)

/-- R28: nothing but `(STATE, INC)` and the ports of the step decides a step's registers and response; the model's own
fields (log entry 1) do not. -/
def Obligations.NoHiddenStateDecidesAStep : Prop :=
  ∀ s₁ s₂ : State, s₁.state = s₂.state → s₁.inc = s₂.inc → s₁.port = s₂.port →
    ∃ t₁ t₂, step s₁ = .next t₁ ∧ step s₂ = .next t₂ ∧
      t₁.state = t₂.state ∧ t₁.inc = t₂.inc ∧ t₁.rsp = t₂.rsp

/-- 60_exceptions.md section 4, marked derived: "Two instances that hold equal `(STATE, INC)` and receive equal command
sequences return equal response sequences". -/
def Obligations.EqualInstancesRespondAlike : Prop :=
  ∀ (s₁ s₂ : State) (xs : List PortInput), s₁.state = s₂.state → s₁.inc = s₂.inc →
    ∃ t₁ t₂ rs, runInputs xs s₁ = .next t₁ ∧ runInputs xs s₂ = .next t₂ ∧
      t₁.responses = s₁.responses ++ rs ∧ t₂.responses = s₂.responses ++ rs ∧
      t₁.state = t₂.state ∧ t₁.inc = t₂.inc

/-- R21: IDLE alone leaves `STATE` to whatever it was; NEW, DEFAULT and reset overwrite it without reading it (nor `INC`);
IDLE does not read it, since with another `STATE` its step differs in that `STATE` alone; GENERATE reads it. -/
def Obligations.WhoWritesAndReadsState : Prop :=
  (∀ s t : State, step s = .next t → t.state ≠ s.state →
    s.port.rst = true ∨ (∃ a b, decode s.port.cmd = .new a b) ∨ decode s.port.cmd = .default ∨
      decode s.port.cmd = .generate) ∧
  (∀ (s : State) (v w : Word), s.port.constructs = true → step { s with state := v, inc := w } = step s) ∧
  (∀ (s : State) (v : Word), s.port.isIdle = true →
    ∃ t, step s = .next t ∧ step { s with state := v } = .next { t with state := v }) ∧
  (∀ s t : State, s.port.isGenerate = true → step s = .next t → t.state = nextState s.state s.inc)

/-- R22: only NEW, DEFAULT and reset write `INC`; over any run without one of them it does not change, and GENERATE does
read it. -/
def Obligations.OnlyConstructionWritesIncrement : Prop :=
  (∀ s t : State, step s = .next t → t.inc ≠ s.inc →
    s.port.rst = true ∨ (∃ a b, decode s.port.cmd = .new a b) ∨ decode s.port.cmd = .default) ∧
  (∀ (s : State) (xs : List PortInput), (∀ p ∈ xs, p.constructs = false) →
    ∃ t, runInputs xs s = .next t ∧ t.inc = s.inc) ∧
  (∀ s t : State, s.port.isGenerate = true → step s = .next t → t.state - nextState s.state 0#64 = s.inc)

/-- From R23 and R68, over the model's own response fields too (log entry 1): every step keeps the invariant. It needs no
run from reset. -/
def Obligations.EveryStepKeepsTheInvariant : Prop :=
  ∀ s t : State, s.Inv → step s = .next t → t.Inv

/-- From R23 and R29: the invariant holds right after reset. -/
def Obligations.ResetMeetsTheInvariant : Prop := State.reset.Inv

/-- R23: `INC[0]` is 1 in every reachable state: from any state where it is, after any number of steps, and every write of
`INC` writes an odd value, whatever it held. -/
def Obligations.IncrementStaysOdd : Prop :=
  (∀ (k : Nat) (s t : State), s.IncOdd → runSteps k s = .next t → t.IncOdd) ∧
  (∀ s t : State, step s = .next t → t.inc ≠ s.inc → t.IncOdd) ∧ State.reset.IncOdd

/-- 10_state.md section 4, marked derived: "The reachable states are exactly the pairs `(STATE, INC)` with `INC[0] = 1`."
Reachable here is: from the reset state, by some finite list of port inputs. -/
def Obligations.ReachableExactlyOddIncrements : Prop :=
  ∀ st inc : Word,
    (∃ xs t, runInputs xs State.reset = .next t ∧ t.state = st ∧ t.inc = inc) ↔ inc.getLsbD 0 = true

/-- R46: "Each command takes effect completely before the next is accepted": a run of `xs` and then `ys` is the run of
`ys` from the state the run of `xs` ends in. -/
def Obligations.CommandsTakeEffectInOrder : Prop :=
  ∀ (s t : State) (xs ys : List PortInput),
    runInputs (xs ++ ys) s = .next t ↔ ∃ u, runInputs xs s = .next u ∧ runInputs ys u = .next t

/-- R185: the cases the rule lists, back to back with no gap: GENERATE after NEW, after DEFAULT and after GENERATE, and NEW
or DEFAULT after GENERATE. -/
def Obligations.NoHazardBetweenCommands : Prop :=
  ∀ (s : State) (a b : Word),
    (∃ t, runInputs [⟨false, encode (.new a b)⟩, ⟨false, encode .generate⟩] s = .next t ∧
      t.rsp = some (permute32 (seedState a (incDerive b))) ∧
      t.state = nextState (seedState a (incDerive b)) (incDerive b) ∧ t.inc = incDerive b) ∧
    (∃ t, runInputs [⟨false, encode .default⟩, ⟨false, encode .generate⟩] s = .next t ∧
      t.rsp = some (permute32 Config.defaultState) ∧
      t.state = nextState Config.defaultState Config.defaultInc ∧ t.inc = Config.defaultInc) ∧
    (∃ t, runInputs [⟨false, encode .generate⟩, ⟨false, encode .generate⟩] s = .next t ∧
      t.rsp = some (permute32 (nextState s.state s.inc)) ∧ t.state = nextState (nextState s.state s.inc) s.inc) ∧
    (∃ t, runInputs [⟨false, encode .generate⟩, ⟨false, encode (.new a b)⟩] s = .next t ∧
      t.rsp = none ∧ t.state = seedState a (incDerive b) ∧ t.inc = incDerive b) ∧
    (∃ t, runInputs [⟨false, encode .generate⟩, ⟨false, encode .default⟩] s = .next t ∧
      t.rsp = none ∧ t.state = Config.defaultState ∧ t.inc = Config.defaultInc)

/-! ### The assembler (30_encoding.md R69) -/

/-- From R69: an operand is accepted exactly when it is a literal below 2^64, at its own value; a literal of 2^64 or more
is an error and is not truncated; and what is no literal is an error. The blanks around an operand, what a literal is beyond
R69's words and the names of the errors are the model's choice (log entry 6). -/
def Obligations.OperandOutOfRangeIsRejected : Prop :=
  (∀ (cs : List Char) (v : Word), readOperand cs = .ok v ↔ readLiteral (trimBlanks cs) = some v.toNat) ∧
  (∀ (cs : List Char) (n : Nat), readLiteral (trimBlanks cs) = some n →
    (2 ^ 64 ≤ n → readOperand cs = .error .operandTooLarge) ∧
    (n < 2 ^ 64 → ∃ v : Word, readOperand cs = .ok v ∧ v.toNat = n)) ∧
  (∀ cs : List Char, readLiteral (trimBlanks cs) = none → readOperand cs = .error .badOperands)

/-- From R66 and R69, "An assembler emits the canonical form" and "Every mnemonic above maps to exactly one command word,
or, for `.reset`, to one reset step": a text assembles exactly when every line of it does, to one input for each line that
holds an item, in the order of the lines; an item is one canonical word with `rst = 0` or one edge with `rst = 1`; and
every emitted input with `rst = 0` carries the canonical word of the command it decodes to. That lines end at a newline, which
blanks and literals `readLine` accepts beyond R69's words, and the word 0 beside the `rst` of `.reset` are the model's choice
(log entry 6). -/
def Obligations.AssembledWordsAreCanonical : Prop :=
  (∀ (text : List Char) (ps : List PortInput), assemble text = .ok ps ↔
    ∃ items : List (Option AsmItem), (splitAtChar '\n' text).map readLine = items.map AsmResult.ok ∧
      ps = (items.filterMap id).map AsmItem.portInput) ∧
  (∀ i, (AsmItem.command i).portInput = ⟨false, encode i⟩) ∧ AsmItem.reset.portInput.rst = true ∧
  (∀ (text : List Char) (ps : List PortInput), assemble text = .ok ps →
    ∀ p ∈ ps, p.rst = false → encode (decode p.cmd) = p.cmd)

/-- From R69: the five forms of a line in mixed case, a comment, an empty line and one of blanks, a hexadecimal and a
grouped literal, and a line of each kind of error. The blanks at the ends of a line and around an operand, and the names of
the errors, are the model's choice (log entry 6). -/
def Obligations.AssemblerLineForms : Prop :=
  readLine "IDLE".toList = .ok (some (.command .idle)) ∧
  readLine "  new 42 , 0x36 ; seeds".toList = .ok (some (.command (.new 42#64 0x36#64))) ∧
  readLine "NEW 0xff306525_39ebeaa9, 0x315bfae4_8ade2146".toList =
    .ok (some (.command (.new 0xff30652539ebeaa9#64 0x315bfae48ade2146#64))) ∧
  readLine "Default".toList = .ok (some (.command .default)) ∧
  readLine "GENERATE ; rsp".toList = .ok (some (.command .generate)) ∧
  readLine ".reset".toList = .ok (some .reset) ∧
  readLine "   ; only a comment".toList = .ok none ∧
  readLine [] = .ok none ∧ readLine "  ".toList = .ok none ∧
  readLine "NEW 18446744073709551615, 0".toList = .ok (some (.command (.new 0xffffffffffffffff#64 0#64))) ∧
  readLine "NEW 18446744073709551616, 0".toList = .error .operandTooLarge ∧
  readLine "NEW 1".toList = .error .badOperands ∧
  readLine "STEP".toList = .error .unknownMnemonic
end

