-- ==== Sys2Proof/Laws/PerInstr.lean ====
section
/-! SUPPORT. Statements made for every command, one lemma per constructor of Instr. -/

namespace Sys2Proof.Laws.OpField

/-- The OP field of a command's canonical word is the opcode 30_encoding.md R64 gives it. -/
def Statement (i : Instr) : Prop := opField (encode i) = opcode i

/-- The OP field of a word put together from its three fields is the opcode. -/
theorem opField_of_fields (op : Op) (a b : Word) :
    opField (op.setWidth 130 ||| (a.setWidth 130 <<< 2) ||| (b.setWidth 130 <<< 66)) = op := by
  apply BitVec.eq_of_getLsbD_eq
  intro j hj
  have h66 : j < 66 := by omega
  simp [opField, hj, h66, show j < 130 by omega]

theorem idle : Statement .idle := opField_of_fields _ _ _

theorem new (initstate initseq : Word) : Statement (.new initstate initseq) := opField_of_fields _ _ _

theorem default : Statement .default := opField_of_fields _ _ _

theorem generate : Statement .generate := opField_of_fields _ _ _

end Sys2Proof.Laws.OpField
end

