-- ==== Sys2Proof/Laws/State.lean ====
section
/-! SUPPORT. One lemma per field of State per update, so that no later proof unfolds a record update.
Each is true by `rfl`, written `(rfl)` so that simp cites the lemma and leaves no definitional check to the kernel: told to
compare a field of an updated state with that field of `s`, the kernel may first compare the two states, and then unfolds
the constant that was written, such as `NEXT_STATE` of two literals, one successor at a time. -/

namespace Sys2Proof.Machine

@[simp] theorem State.setState_state (s : State) (v : Word) :
    (s.setState v).state = v := (rfl)
@[simp] theorem State.setState_inc (s : State) (v : Word) :
    (s.setState v).inc = s.inc := (rfl)
@[simp] theorem State.setState_inputs (s : State) (v : Word) :
    (s.setState v).inputs = s.inputs := (rfl)
@[simp] theorem State.setState_rsp (s : State) (v : Word) :
    (s.setState v).rsp = s.rsp := (rfl)
@[simp] theorem State.setState_responses (s : State) (v : Word) :
    (s.setState v).responses = s.responses := (rfl)

@[simp] theorem State.setInc_state (s : State) (v : Word) :
    (s.setInc v).state = s.state := (rfl)
@[simp] theorem State.setInc_inc (s : State) (v : Word) :
    (s.setInc v).inc = v := (rfl)
@[simp] theorem State.setInc_inputs (s : State) (v : Word) :
    (s.setInc v).inputs = s.inputs := (rfl)
@[simp] theorem State.setInc_rsp (s : State) (v : Word) :
    (s.setInc v).rsp = s.rsp := (rfl)
@[simp] theorem State.setInc_responses (s : State) (v : Word) :
    (s.setInc v).responses = s.responses := (rfl)

@[simp] theorem State.respond_state (s : State) (v : Out) :
    (s.respond v).state = s.state := (rfl)
@[simp] theorem State.respond_inc (s : State) (v : Out) :
    (s.respond v).inc = s.inc := (rfl)
@[simp] theorem State.respond_inputs (s : State) (v : Out) :
    (s.respond v).inputs = s.inputs := (rfl)
@[simp] theorem State.respond_rsp (s : State) (v : Out) :
    (s.respond v).rsp = some v := (rfl)
@[simp] theorem State.respond_responses (s : State) (v : Out) :
    (s.respond v).responses = s.responses ++ [v] := (rfl)

@[simp] theorem State.noRespond_state (s : State) :
    s.noRespond.state = s.state := (rfl)
@[simp] theorem State.noRespond_inc (s : State) :
    s.noRespond.inc = s.inc := (rfl)
@[simp] theorem State.noRespond_inputs (s : State) :
    s.noRespond.inputs = s.inputs := (rfl)
@[simp] theorem State.noRespond_rsp (s : State) :
    s.noRespond.rsp = none := (rfl)
@[simp] theorem State.noRespond_responses (s : State) :
    s.noRespond.responses = s.responses := (rfl)

@[simp] theorem State.loadDefault_state (s : State) :
    s.loadDefault.state = Config.defaultState := (rfl)
@[simp] theorem State.loadDefault_inc (s : State) :
    s.loadDefault.inc = Config.defaultInc := (rfl)
@[simp] theorem State.loadDefault_inputs (s : State) :
    s.loadDefault.inputs = s.inputs := (rfl)
@[simp] theorem State.loadDefault_rsp (s : State) :
    s.loadDefault.rsp = s.rsp := (rfl)
@[simp] theorem State.loadDefault_responses (s : State) :
    s.loadDefault.responses = s.responses := (rfl)

@[simp] theorem State.resetStep_state (s : State) :
    s.resetStep.state = Config.defaultState := (rfl)
@[simp] theorem State.resetStep_inc (s : State) :
    s.resetStep.inc = Config.defaultInc := (rfl)
@[simp] theorem State.resetStep_inputs (s : State) :
    s.resetStep.inputs = s.inputs := (rfl)
@[simp] theorem State.resetStep_rsp (s : State) :
    s.resetStep.rsp = none := (rfl)
@[simp] theorem State.resetStep_responses (s : State) :
    s.resetStep.responses = s.responses := (rfl)

@[simp] theorem State.takeInput_state (s : State) :
    s.takeInput.state = s.state := (rfl)
@[simp] theorem State.takeInput_inc (s : State) :
    s.takeInput.inc = s.inc := (rfl)
@[simp] theorem State.takeInput_inputs (s : State) :
    s.takeInput.inputs = s.inputs.tail := (rfl)
@[simp] theorem State.takeInput_rsp (s : State) :
    s.takeInput.rsp = s.rsp := (rfl)
@[simp] theorem State.takeInput_responses (s : State) :
    s.takeInput.responses = s.responses := (rfl)

@[simp] theorem State.present_state (s : State) (p : PortInput) :
    (s.present p).state = s.state := (rfl)
@[simp] theorem State.present_inc (s : State) (p : PortInput) :
    (s.present p).inc = s.inc := (rfl)
@[simp] theorem State.present_inputs (s : State) (p : PortInput) :
    (s.present p).inputs = p :: s.inputs := (rfl)
@[simp] theorem State.present_rsp (s : State) (p : PortInput) :
    (s.present p).rsp = s.rsp := (rfl)
@[simp] theorem State.present_responses (s : State) (p : PortInput) :
    (s.present p).responses = s.responses := (rfl)

@[simp] theorem State.reset_state : State.reset.state = Config.defaultState := (rfl)
@[simp] theorem State.reset_inc : State.reset.inc = Config.defaultInc := (rfl)
@[simp] theorem State.reset_inputs : State.reset.inputs = [] := (rfl)
@[simp] theorem State.reset_rsp : State.reset.rsp = none := (rfl)
@[simp] theorem State.reset_responses : State.reset.responses = [] := (rfl)

/-- Taking the input just presented gives back the state it was presented to. -/
@[simp] theorem State.takeInput_present (s : State) (p : PortInput) : (s.present p).takeInput = s := (rfl)

/-- The current port input is the one just presented. -/
@[simp] theorem State.port_present (s : State) (p : PortInput) : (s.present p).port = p := (rfl)

/-- With nothing to present, the port is quiet. -/
theorem State.port_of_nil {s : State} (h : s.inputs = []) : s.port = PortInput.quiet := by
  simp [State.port, h]

/-- With something to present, the port carries the first of it. -/
theorem State.port_of_cons {s : State} {p : PortInput} {ps : List PortInput} (h : s.inputs = p :: ps) :
    s.port = p := by
  simp [State.port, h]

end Sys2Proof.Machine
end

