-- ==== Sys2Proof/Laws/Step.lean ====
section
/-! SUPPORT. What a command, a step and a run can do, said once: later proofs cite these and unfold neither exec nor
step. -/

namespace Sys2Proof.Machine

/-- Everything a command can do: which one it is, and the state it answers. -/
theorem exec_cases {i : Instr} {s t : State} (h : exec i s = .next t) :
    (i = .idle ∧ t = s.noRespond) ∨
    (∃ a b, i = .new a b ∧ t = ((s.setInc (incDerive b)).setState (seedState a (incDerive b))).noRespond) ∨
    (i = .default ∧ t = s.loadDefault.noRespond) ∨
    (i = .generate ∧ t = (s.setState (nextState s.state s.inc)).respond (permute32 s.state)) := by
  cases i with
  | idle => exact .inl ⟨rfl, (Host.Outcome.next.inj h).symm⟩
  | new a b => exact .inr (.inl ⟨a, b, rfl, (Host.Outcome.next.inj h).symm⟩)
  | default => exact .inr (.inr (.inl ⟨rfl, (Host.Outcome.next.inj h).symm⟩))
  | generate => exact .inr (.inr (.inr ⟨rfl, (Host.Outcome.next.inj h).symm⟩))

/-- No command reads or writes what the host will present. -/
theorem exec_inputs {i : Instr} {s t : State} (h : exec i s = .next t) : t.inputs = s.inputs := by
  obtain ⟨-, rfl⟩ | ⟨a, b, -, rfl⟩ | ⟨-, rfl⟩ | ⟨-, rfl⟩ := exec_cases h <;> simp

/-- A step with `rst = 1` is the reset step. -/
theorem step_of_rst {s : State} (h : s.port.rst = true) : step s = .next s.takeInput.resetStep := by
  simp [step, h]

/-- A step with `rst = 0` performs the decoded command. -/
theorem step_of_command {s : State} (h : s.port.rst = false) :
    step s = exec (decode s.port.cmd) s.takeInput := by
  simp [step, h]

/-- Everything a step can do: a reset, or the decoded command. -/
theorem step_cases {s t : State} (h : step s = .next t) :
    (s.port.rst = true ∧ t = s.takeInput.resetStep) ∨
    (s.port.rst = false ∧ exec (decode s.port.cmd) s.takeInput = .next t) := by
  cases hr : s.port.rst with
  | true => exact .inl ⟨rfl, (Host.Outcome.next.inj ((step_of_rst hr).symm.trans h)).symm⟩
  | false => exact .inr ⟨rfl, (step_of_command hr).symm.trans h⟩

/-- A step takes one input from the host and leaves the others. -/
theorem step_inputs {s t : State} (h : step s = .next t) : t.inputs = s.inputs.tail := by
  obtain ⟨-, rfl⟩ | ⟨-, h⟩ := step_cases h
  · simp
  · simpa using exec_inputs h

/-- The step right after the host presents a command performs it on the state as it was. -/
theorem step_present_command (s : State) (w : CmdWord) : step (s.present (.command w)) = exec (decode w) s :=
  step_of_command rfl

/-- The step right after the host asserts `rst` is the reset step, whatever word stands beside it. -/
theorem step_present_rst (s : State) (w : CmdWord) : step (s.present ⟨true, w⟩) = .next s.resetStep :=
  step_of_rst rfl

/-- A run of no inputs ends where it starts. -/
theorem runInputs_nil (s : State) : runInputs [] s = .next { s with inputs := [] } := rfl

/-- A run of `k + 1` steps that can take its first goes on from there. -/
theorem runSteps_succ {s t : State} (h : step s = .next t) (k : Nat) : runSteps (k + 1) s = runSteps k t := by
  have hs : core.step s = .next t := h
  change Host.Core.run core (k + 1) s = Host.Core.run core k t
  simp only [Host.Core.run, hs]

/-- A run performs its first input and goes on from there. -/
theorem runInputs_cons {p : PortInput} {xs : List PortInput} {s t : State}
    (h : step { s with inputs := p :: xs } = .next t) : runInputs (p :: xs) s = runInputs xs t := by
  have ht : { t with inputs := xs } = t := by
    have hi : t.inputs = xs := by simpa using step_inputs h
    rw [← hi]
  rw [runInputs, runInputs, ht]
  exact runSteps_succ h xs.length

end Sys2Proof.Machine
end

