-- ==== Sys2Proof/Tests/Slice0.lean ====
section
/-! SUPPORT. Tests whose expected values stand in 95_test_vectors.md or in the rule named, and one witness for the
hypotheses of each statement that has some, at the ends of their ranges. -/

namespace Sys2Proof.Tests

open Sys2Proof.Machine

/-- The registers and the response a command leaves. -/
def after (i : Instr) (s : State) : Option (Word × Word × Option Out) :=
  (nextOf (exec i s)).map fun t => (t.state, t.inc, t.rsp)

/-- The registers and the response a step leaves. -/
def afterStep (s : State) : Option (Word × Word × Option Out) :=
  (nextOf (step s)).map fun t => (t.state, t.inc, t.rsp)

/-! ### Well-formedness -/

/-- An operand of 2^64 is refused (R69). -/
theorem test_operandInRange_refuses : operandInRange (2 ^ 64) = false := by decide

/-- The largest operand is accepted (R100: every bit pattern is legal). -/
theorem test_wellFormed_new : (Instr.new 0xffffffffffffffff#64 0xffffffffffffffff#64).wellFormed = true := by decide

/-- An ill-formed operand does not assemble (R69). -/
theorem test_operand_too_large : readOperand "0x1_0000000000000000".toList = .error .operandTooLarge := by decide

/-! ### Decoding, bit by bit from R61: B at [129:66], A at [65:2], OP at [1:0] -/

/-- OP = 00, canonical and with A = 0x123 (section 2.8). -/
theorem test_decode_idle : decode 0x0#130 = .idle ∧ decode 0x48c#130 = .idle := by decide

/-- OP = 01, A = 0x5, B = 0x7: 1 + 5 * 2^2 + 7 * 2^66 (section 2.8). -/
theorem test_decode_new : decode 0x1c0000000000000015#130 = .new 0x5#64 0x7#64 := by decide

/-- OP = 01 with only bit 65 and only bit 129 set: the top bits of A and of B (R61). -/
theorem test_decode_new_top_bits :
    decode 0x020000000000000001#130 = .new 0x8000000000000000#64 0#64 ∧
    decode 0x200000000000000000000000000000001#130 = .new 0#64 0x8000000000000000#64 := by decide

/-- OP = 10, canonical and with all operand bits set (section 2.8). -/
theorem test_decode_default :
    decode 0x2#130 = .default ∧ decode 0x3fffffffffffffffffffffffffffffffe#130 = .default := by decide

/-- OP = 11, canonical and with all bits set (section 2.8). -/
theorem test_decode_generate :
    decode 0x3#130 = .generate ∧ decode 0x3ffffffffffffffffffffffffffffffff#130 = .generate := by decide

/-- The words of the NEW lines of programs P2 and P4. -/
theorem test_encode_new :
    encode (.new 0xff30652539ebeaa9#64 0x315bfae48ade2146#64) = 0x0c56feb922b78851bfcc19494e7afaaa5#130 ∧
    encode (.new 0x9f282d9a7c764541#64 0#64) = 0x27ca0b669f1d91505#130 := by decide

/-- A table row in 17 whole bytes reads as the port's 130 bits. -/
theorem test_decodeTableWord :
    decodeTableWord 136 0xd800000000000000a9 = some (.new 0x2a#64 0x36#64) ∧
    decodeTableWord 8 0x3 = some .generate := by decide

/-! ### Parameters and datapath -/

/-- `MUL` in hexadecimal, its inverse and the derived INC field values (R6, R25). -/
theorem test_constants : Config.mul = 0x5851f42d4c957f2d#64 ∧ Config.mul * Config.mulInv = 1#64 ∧
    Config.defaultInc.extractLsb' 1 63 = 0x6d1f1ce5ca5caded#63 := by decide

/-- A row of the rotation table and three of the permutation table (section 2.3). -/
theorem test_permute : rotr32 0x00000001#32 31#5 = 0x00000002#32 ∧
    permute32 0x0800000000000000#64 = 0x00002000#32 ∧ permute32 0xf800000000000000#64 = 0x000f8000#32 ∧
    permute32 0x0000200000000000#64 = 0x00040001#32 := by decide

/-! ### Commands -/

/-- The source's seeded construction (section 1.2, section 2.5): it catches swapped operands. -/
theorem test_new_seeded : after (.new 0xff30652539ebeaa9#64 0x315bfae48ade2146#64) (State.launch 0#64 0#64) =
    some (0xb3c3dffddd27ff0b#64, 0x62b7f5c915bc428d#64, none) := by decide

/-- A row of section 2.5 in which both additions wrap. -/
theorem test_new_all_ones : after (.new 0xffffffffffffffff#64 0xffffffffffffffff#64) (State.launch 5#64 7#64) =
    some (0x4f5c17a566d501a5#64, 0xffffffffffffffff#64, none) := by decide

/-- DEFAULT from any registers (section 2.7). -/
theorem test_default : after .default (State.launch 0#64 1#64) =
    some (0x853c49e6748fea9b#64, 0xda3e39cb94b95bdb#64, none) := by decide

/-- The source's first default output (section 1.1), from the reset state. -/
theorem test_generate_default : after .generate State.reset =
    some (0xc83015ca079f7e1a#64, 0xda3e39cb94b95bdb#64, some 0x152ca78d#32) := by decide

/-- A rotation by 31, and a product and sum that wrap (section 2.6). -/
theorem test_generate_all_ones : after .generate (State.launch 0xffffffffffffffff#64 0xda3e39cb94b95bdb#64) =
    some (0x81ec459e4823dcae#64, 0xda3e39cb94b95bdb#64, some 0xfff00001#32) := by decide

/-- IDLE (section 2.7), and it clears the response of the step before. -/
theorem test_idle :
    after .idle { State.launch 0x5e482f0d82b18c7c#64 0x62b7f5c915bc428d#64 with rsp := some 1#32 } =
      some (0x5e482f0d82b18c7c#64, 0x62b7f5c915bc428d#64, none) := by decide

/-! ### Steps and ports -/

/-- Reset with `cmd` = GENERATE: the GENERATE is discarded (section 2.7). -/
theorem test_step_reset_wins :
    afterStep ((State.launch 0x5e482f0d82b18c7c#64 0x62b7f5c915bc428d#64).present ⟨true, 0x3#130⟩) =
      some (0x853c49e6748fea9b#64, 0xda3e39cb94b95bdb#64, none) := by decide

/-- The host's word is the next step from reset (program P1, first line). -/
theorem test_step_withFetchWord : afterStep (State.reset.withFetchWord 136 0x3) =
    some (0xc83015ca079f7e1a#64, 0xda3e39cb94b95bdb#64, some 0x152ca78d#32) := by decide

/-- `rsp_data` is driven before the edge, and is 0 without a GENERATE (R68). -/
theorem test_ports :
    (State.reset.present (.command 0x3#130)).rspData = 0x152ca78d#32 ∧
    (State.reset.present (.command 0x2#130)).rspData = 0#32 ∧ State.reset.rspValid = false := by decide

/-- Every response is recorded, in order (R192). -/
theorem test_responses :
    (nextOf (exec .generate { State.reset with responses := [1#32] })).map State.responses =
      some [1#32, 0x152ca78d#32] := by decide

/-- A program text of R69 assembles to its port inputs. -/
theorem test_assemble : assemble ".reset\nNEW 42, 54 ; seeds\n\ngenerate".toList =
    .ok [⟨true, 0#130⟩, ⟨false, 0xd800000000000000a9#130⟩, ⟨false, 0x3#130⟩] := by decide

/-! ### Witnesses: for each statement with hypotheses, values that meet them all -/

/-- The smallest and the largest NEW word. -/
theorem witness_OpcodeAloneSelectsCommand :
    decode 0x1#130 = .new 0#64 0#64 ∧
    decode 0x3fffffffffffffffffffffffffffffffd#130 = .new 0xffffffffffffffff#64 0xffffffffffffffff#64 := by decide

theorem witness_IgnoredFieldsHaveNoEffect :
    ((0x48c#130).toNat % 4 = (0x0#130).toNat % 4 ∧ (0x48c#130).toNat % 4 ≠ 1) ∧
    ((0x3fffffffffffffffffffffffffffffffe#130).toNat % 4 = (0x2#130).toNat % 4 ∧ (0x2#130).toNat % 4 ≠ 1) ∧
    ((0x3ffffffffffffffffffffffffffffffff#130).toNat % 4 = (0x3#130).toNat % 4 ∧ (0x3#130).toNat % 4 ≠ 1) := by
  decide

/-- Both branches of the bit form, where they meet and at their ends. -/
theorem witness_XorshiftBits :
    (xsh32 (1#64 <<< 45)).getLsbD 0 = true ∧ (xsh32 (1#64 <<< 63)).getLsbD 18 = true ∧
    (xsh32 (1#64 <<< 46)).getLsbD 19 = true ∧ (xsh32 (1#64 <<< 58)).getLsbD 31 = true := by decide

theorem witness_RotationIsCircular :
    (rotr32 1#32 1#5).getLsbD 31 = true ∧ (rotr32 1#32 0#5).getLsbD 0 = true ∧
    (rotr32 0x80000000#32 31#5).getLsbD 0 = true := by decide

theorem witness_OutputPermutation : (0x07ffffffffffffff#64).toNat < 2 ^ 59 := by decide

theorem witness_OutputPermutationBits :
    15 = (31 + (0x853c49e6748fea9b#64).toNat / 2 ^ 59) % 32 ∧ 31 = (0 + (0xf800000000000000#64).toNat / 2 ^ 59) % 32 ∧
    18 = (18 + (0#64).toNat / 2 ^ 59) % 32 ∧ 19 = (19 + (0#64).toNat / 2 ^ 59) % 32 := by decide

theorem witness_SeedStateFormula : 0x62b7f5c915bc428d#64 + 0x9d480a36ea43bd73#64 = 0#64 := by decide

theorem witness_SeedSelectsTheStream :
    (1#64).toNat % 2 = 1 ∧ (0xffffffffffffffff#64).toNat % 2 = 1 := by decide

theorem witness_LcgHasFullPeriod : Config.defaultInc.getLsbD 0 = true := by decide

theorem witness_NewConstructsFromSeedPair : incDerive 0#64 + 0xffffffffffffffff#64 = 0#64 := by decide

theorem witness_DefaultLoadsConstants :
    exec .default (State.launch 0#64 1#64) = .next State.reset := rfl

/-- One of each input that constructs, and one of each that does not. -/
theorem witness_ConstructionIsDeterministic :
    (PortInput.command 0x1#130).constructs = true ∧ (PortInput.command 0x2#130).constructs = true ∧
    (PortInput.mk true 0x3#130).constructs = true ∧ (PortInput.command 0x0#130).constructs = false ∧
    (PortInput.command 0x3#130).constructs = false := by decide

theorem witness_ConstructionIsIdempotent :
    State.reset.IncOdd ∧ (State.launch 0#64 0xffffffffffffffff#64).IncOdd := by decide

/-- The rotation by 31, the zero state, and the state of all ones with INC = 1. -/
theorem witness_GenerateRespondsAndAdvances :
    (State.launch 0xf800000000000000#64 1#64).state.extractLsb' 59 5 = 31#5 ∧ (State.launch 0#64 1#64).state = 0#64 ∧
    (State.launch 0xffffffffffffffff#64 1#64).state = 0xffffffffffffffff#64 ∧
    (State.launch 0xffffffffffffffff#64 1#64).inc = 1#64 := by decide

theorem witness_RotationByZeroGivesXorshift : (State.launch 0x07ffffffffffffff#64 1#64).state.toNat < 2 ^ 59 := by decide

theorem witness_ResponseIsFromCapturedState :
    State.reset.state = Config.defaultState ∧ State.reset.inc = Config.defaultInc := by decide

theorem witness_ResponseIgnoresIncrement :
    State.reset.state = (State.launch 0x853c49e6748fea9b#64 1#64).state := by decide

theorem witness_ResponseSequenceClosedForm :
    ∀ p ∈ [PortInput.command 0x3#130, .command 0x48c#130, .command 0x7#130],
      p.isGenerate = true ∨ p.isIdle = true := by decide

theorem witness_IdleChangesNothing : opField 0x48c#130 = 0b00#2 := by decide

theorem witness_HeldResetIsOneReset :
    [PortInput.mk true 0x3#130, .mk true 0x0#130] ≠ [] ∧
    (∀ p ∈ [PortInput.mk true 0x3#130, .mk true 0x0#130], p.rst = true) ∧ opField 0x3#130 = 0b11#2 := by decide

theorem witness_StepRunsTheDecodedCommand :
    (State.reset.present (.command 0x3#130)).inputs = ⟨false, 0x3#130⟩ :: [] ∧
    decodeTableWord 136 0x1 = some (.new 0#64 0#64) ∧ State.reset.inputs = [] := by decide

/-- A cycle with `rsp_valid = 1`, and one each with 0 by the command and by `rst`. -/
theorem witness_ResponsePortsMatchTheStep :
    (State.reset.present (.command 0x3#130)).rspValid = true ∧
    (State.reset.present (.command 0x0#130)).rspValid = false ∧
    (State.reset.present ⟨true, 0x3#130⟩).rspValid = false := by decide

/-- Two states that agree on the registers and the port, and on nothing else. -/
theorem witness_NoHiddenStateDecidesAStep :
    let s₁ : State := State.reset.present (.command 0x3#130)
    let s₂ : State := { s₁ with rsp := some 1#32, responses := [1#32], inputs := s₁.inputs ++ s₁.inputs }
    s₁ ≠ s₂ ∧ s₁.state = s₂.state ∧ s₁.inc = s₂.inc ∧ s₁.port = s₂.port := by decide

theorem witness_EqualInstancesRespondAlike :
    let s₂ : State := { State.reset with responses := [1#32] }
    State.reset ≠ s₂ ∧ State.reset.state = s₂.state ∧ State.reset.inc = s₂.inc := by decide

/-- A step that changes `STATE`, a construction, an IDLE step, and a GENERATE step that answers a next state. -/
theorem witness_WhoWritesAndReadsState :
    ((nextOf (step (State.reset.present (.command 0x3#130)))).all (fun t => t.state ≠ State.reset.state)) = true ∧
    (nextOf (step (State.reset.present (.command 0x3#130)))).isSome = true ∧
    (State.reset.present (.command 0x1#130)).port.constructs = true ∧
    State.reset.port.isIdle = true ∧ (State.reset.present (.command 0x48c#130)).port.isIdle = true ∧
    (State.reset.present (.command 0x3#130)).port.isGenerate = true := by decide

/-- A step that changes `INC`, a run without a construction, and a GENERATE step that answers a next state. -/
theorem witness_OnlyConstructionWritesIncrement :
    ((nextOf (step (State.reset.present (.command 0x1#130)))).all (fun t => t.inc ≠ State.reset.inc)) = true ∧
    (nextOf (step (State.reset.present (.command 0x1#130)))).isSome = true ∧
    (∀ p ∈ [PortInput.command 0x0#130, .command 0x3#130], p.constructs = false) ∧
    (State.reset.present (.command 0x3#130)).port.isGenerate = true := by decide

/-- A state with a response that meets the invariant, and a step from it. -/
theorem witness_EveryStepKeepsTheInvariant :
    State.Inv { State.reset with rsp := some 1#32, responses := [2#32, 1#32] } ∧
    (nextOf (step { State.reset with rsp := some 1#32, responses := [2#32, 1#32] })).isSome = true :=
  ⟨⟨by decide, by simp [State.ResponseRecorded]⟩, by decide⟩

/-- An odd start with a run, and a step that changes an even `INC`. -/
theorem witness_IncrementStaysOdd :
    State.reset.IncOdd ∧ (nextOf (runSteps 2 State.reset)).isSome = true ∧
    ((nextOf (step ((State.launch 0#64 2#64).present (.command 0x1#130)))).all (fun t => t.inc ≠ 2#64)) = true ∧
    (nextOf (step ((State.launch 0#64 2#64).present (.command 0x1#130)))).isSome = true := by decide

theorem witness_ReachableExactlyOddIncrements : (0xffffffffffffffff#64).getLsbD 0 = true := by decide

/-- The operands where the clauses meet, and three that are no literal. -/
theorem witness_OperandOutOfRangeIsRejected :
    readLiteral (trimBlanks "18446744073709551616".toList) = some (2 ^ 64) ∧
    readLiteral (trimBlanks " 0xffffffff_ffffffff ".toList) = some (2 ^ 64 - 1) ∧
    readLiteral (trimBlanks "".toList) = none ∧ readLiteral (trimBlanks "12a".toList) = none ∧
    readLiteral (trimBlanks "0x".toList) = none := by decide

theorem witness_AssembledWordsAreCanonical :
    assemble "NEW 1, 2\n.reset".toList = .ok [⟨false, 0x80000000000000005#130⟩, ⟨true, 0#130⟩] ∧
    (PortInput.mk false 0x80000000000000005#130).rst = false := by decide

end Sys2Proof.Tests
end

/-! SUPPORT. Facts about commands, ports, steps and runs that the proofs of the statements cite. -/
section

namespace Sys2Proof.Machine

/-! ### What each command answers, from every state -/

@[simp] theorem exec_idle (s : State) : exec .idle s = .next s.noRespond := rfl

@[simp] theorem exec_new (a b : Word) (s : State) :
    exec (.new a b) s = .next ((s.setInc (incDerive b)).setState (seedState a (incDerive b))).noRespond := rfl

@[simp] theorem exec_default (s : State) : exec .default s = .next s.loadDefault.noRespond := rfl

@[simp] theorem exec_generate (s : State) :
    exec .generate s = .next ((s.setState (nextState s.state s.inc)).respond (permute32 s.state)) := rfl

/-- Every command completes (60_exceptions.md R150). -/
theorem exec_total (i : Instr) (s : State) : ∃ t, exec i s = .next t := by
  cases i with
  | idle => exact ⟨_, exec_idle s⟩
  | new a b => exact ⟨_, exec_new a b s⟩
  | default => exact ⟨_, exec_default s⟩
  | generate => exact ⟨_, exec_generate s⟩

/-- The registers and the response a command leaves are functions of the registers it finds. -/
theorem exec_congr_registers (i : Instr) {s₁ s₂ : State} (hstate : s₁.state = s₂.state) (hinc : s₁.inc = s₂.inc) :
    ∃ t₁ t₂, exec i s₁ = .next t₁ ∧ exec i s₂ = .next t₂ ∧
      t₁.state = t₂.state ∧ t₁.inc = t₂.inc ∧ t₁.rsp = t₂.rsp := by
  cases i with
  | idle => exact ⟨_, _, exec_idle s₁, exec_idle s₂, by simp [hstate, hinc]⟩
  | new a b => exact ⟨_, _, exec_new a b s₁, exec_new a b s₂, by simp⟩
  | default => exact ⟨_, _, exec_default s₁, exec_default s₂, by simp⟩
  | generate => exact ⟨_, _, exec_generate s₁, exec_generate s₂, by simp [hstate, hinc]⟩

/-! ### The kinds of port input -/

theorem PortInput.isIdle_iff {p : PortInput} : p.isIdle = true ↔ p.rst = false ∧ decode p.cmd = .idle := by
  simp [PortInput.isIdle]

theorem PortInput.isGenerate_iff {p : PortInput} :
    p.isGenerate = true ↔ p.rst = false ∧ decode p.cmd = .generate := by
  simp [PortInput.isGenerate]

/-- The inputs that construct are the reset, NEW and DEFAULT. -/
theorem PortInput.constructs_iff {p : PortInput} : p.constructs = true ↔
    p.rst = true ∨ (∃ a b, decode p.cmd = .new a b) ∨ decode p.cmd = .default := by
  cases hr : p.rst with
  | true => simp [PortInput.constructs, hr]
  | false => cases hd : decode p.cmd <;> simp [PortInput.constructs, PortInput.isIdle, PortInput.isGenerate, hr, hd]

/-! ### What a step does -/

theorem step_of_isIdle {s : State} (h : s.port.isIdle = true) : step s = .next s.takeInput.noRespond := by
  obtain ⟨hr, hd⟩ := PortInput.isIdle_iff.mp h
  rw [step_of_command hr, hd, exec_idle]

theorem step_of_isGenerate {s : State} (h : s.port.isGenerate = true) :
    step s = .next ((s.takeInput.setState (nextState s.state s.inc)).respond (permute32 s.state)) := by
  obtain ⟨hr, hd⟩ := PortInput.isGenerate_iff.mp h
  rw [step_of_command hr, hd, exec_generate, State.takeInput_state, State.takeInput_inc]

/-- Every step completes (60_exceptions.md R150). -/
theorem step_total (s : State) : ∃ t, step s = .next t := by
  cases hr : s.port.rst with
  | true => exact ⟨_, step_of_rst hr⟩
  | false =>
    rw [step_of_command hr]
    exact exec_total _ _

/-- A step that changes `INC` is a construction: IDLE and GENERATE leave it (10_state.md R22). -/
theorem constructs_of_step_inc_ne {s t : State} (h : step s = .next t) (hne : t.inc ≠ s.inc) :
    s.port.constructs = true := by
  rw [PortInput.constructs_iff]
  obtain ⟨hr, -⟩ | ⟨-, h⟩ := step_cases h
  · exact .inl hr
  · obtain ⟨-, rfl⟩ | ⟨a, b, hd, -⟩ | ⟨hd, -⟩ | ⟨-, rfl⟩ := exec_cases h
    · simp at hne
    · exact .inr (.inl ⟨a, b, hd⟩)
    · exact .inr (.inr hd)
    · simp at hne

/-- A step that is no construction leaves `INC` (10_state.md R22). -/
theorem step_inc_of_not_constructs {s t : State} (hp : s.port.constructs = false) (h : step s = .next t) :
    t.inc = s.inc := by
  by_contra hne
  simp [constructs_of_step_inc_ne h hne] at hp

/-- The increment NEW derives is odd (40_datapath.md R81). -/
theorem incDerive_odd (b : Word) : (incDerive b).getLsbD 0 = true := by
  simp [incDerive]

theorem defaultInc_odd : Config.defaultInc.getLsbD 0 = true := by decide

/-- A construction leaves `INC` odd, whatever it was (10_state.md R23). -/
theorem incOdd_of_step_constructs {s t : State} (hp : s.port.constructs = true) (h : step s = .next t) :
    t.IncOdd := by
  obtain ⟨-, rfl⟩ | ⟨hr, h⟩ := step_cases h
  · simpa [State.IncOdd] using defaultInc_odd
  · obtain ⟨hd, -⟩ | ⟨a, b, -, rfl⟩ | ⟨-, rfl⟩ | ⟨hd, -⟩ := exec_cases h
    · simp [PortInput.constructs_iff, hr, hd] at hp
    · simpa [State.IncOdd] using incDerive_odd b
    · simpa [State.IncOdd] using defaultInc_odd
    · simp [PortInput.constructs_iff, hr, hd] at hp

/-- A step keeps `INC` odd (10_state.md R23). -/
theorem step_incOdd (s t : State) (hs : s.IncOdd) (h : step s = .next t) : t.IncOdd := by
  cases hp : s.port.constructs with
  | true => exact incOdd_of_step_constructs hp h
  | false =>
    rw [State.IncOdd, step_inc_of_not_constructs hp h]
    exact hs

/-- A construction reads neither register (10_state.md R21, 41_construction.md R107). -/
theorem step_overwrites_of_constructs {s : State} (hp : s.port.constructs = true) (v w : Word) :
    step { s with state := v, inc := w } = step s := by
  have hport : ({ s with state := v, inc := w } : State).port = s.port := rfl
  cases hr : s.port.rst with
  | true => rw [step_of_rst hr, step_of_rst (hport ▸ hr)]; rfl
  | false =>
    rw [step_of_command hr, step_of_command (hport ▸ hr), hport]
    obtain ⟨a, b, hd⟩ | hd := by simpa [PortInput.constructs_iff, hr] using hp
    · rw [hd]; rfl
    · rw [hd]; rfl

/-- A step that changes `STATE` is a construction or a GENERATE: IDLE leaves it (10_state.md R21). -/
theorem command_of_step_state_ne {s t : State} (h : step s = .next t) (hne : t.state ≠ s.state) :
    s.port.rst = true ∨ (∃ a b, decode s.port.cmd = .new a b) ∨ decode s.port.cmd = .default ∨
      decode s.port.cmd = .generate := by
  obtain ⟨hr, -⟩ | ⟨-, h⟩ := step_cases h
  · exact .inl hr
  · obtain ⟨-, rfl⟩ | ⟨a, b, hd, -⟩ | ⟨hd, -⟩ | ⟨hd, -⟩ := exec_cases h
    · simp at hne
    · exact .inr (.inl ⟨a, b, hd⟩)
    · exact .inr (.inr (.inl hd))
    · exact .inr (.inr (.inr hd))

/-! ### Runs -/

/-- What every step keeps, every number of steps keeps. -/
theorem runSteps_invariant {P : State → Prop} (hstep : ∀ s t, P s → step s = .next t → P t) (k : Nat) :
    ∀ s t, P s → runSteps k s = .next t → P t := by
  induction k with
  | zero =>
    intro s t hs h
    exact Host.Outcome.next.inj h ▸ hs
  | succ k ih =>
    intro s t hs h
    obtain ⟨u, hu⟩ := step_total s
    rw [runSteps_succ hu] at h
    exact ih u t (hstep s u hs hu) h

/-- Over a run without a construction `INC` does not change (10_state.md R22). -/
theorem runInputs_inc_of_not_constructs (xs : List PortInput) (hxs : ∀ p ∈ xs, p.constructs = false) (s : State) :
    ∃ t, runInputs xs s = .next t ∧ t.inc = s.inc := by
  induction xs generalizing s with
  | nil => exact ⟨_, runInputs_nil s, rfl⟩
  | cons p xs ih =>
    obtain ⟨hp, hxs⟩ := List.forall_mem_cons.mp hxs
    obtain ⟨t, ht⟩ := step_total { s with inputs := p :: xs }
    obtain ⟨u, hu, hinc⟩ := ih hxs t
    have hstep : t.inc = s.inc := step_inc_of_not_constructs (s := { s with inputs := p :: xs }) hp ht
    exact ⟨u, (runInputs_cons ht).trans hu, hinc.trans hstep⟩

/-! ### The increment in the recurrence -/

/-- The part of `NEXT_STATE` that is not the product is `inc` (40_datapath.md R86). -/
theorem nextState_sub_nextState_zero (s inc : Word) : nextState s inc - nextState s 0#64 = inc := by
  rw [nextState, nextState, mulAdd64, mulAdd64, BitVec.add_zero, BitVec.add_comm, BitVec.add_sub_cancel]

end Sys2Proof.Machine
end

/-! SUPPORT. The statements of 10_state.md. -/
section

namespace Sys2Proof.Machine

/-- Settles O43: a reset reads nothing, and a command's registers and response are functions of the registers. -/
theorem noHiddenStateDecidesAStep : Obligations.NoHiddenStateDecidesAStep := by
  unfold Obligations.NoHiddenStateDecidesAStep
  intro s₁ s₂ hstate hinc hport
  cases hr : s₁.port.rst with
  | true => exact ⟨_, _, step_of_rst hr, step_of_rst (hport ▸ hr), by simp⟩
  | false =>
    rw [step_of_command hr, step_of_command (hport ▸ hr), ← hport]
    exact exec_congr_registers _ (by simpa using hstate) (by simpa using hinc)

/-- Settles O45, one lemma for each clause. -/
theorem whoWritesAndReadsState : Obligations.WhoWritesAndReadsState := by
  unfold Obligations.WhoWritesAndReadsState
  refine ⟨fun s t => command_of_step_state_ne, fun s v w hp => step_overwrites_of_constructs hp v w,
    fun s v hp => ?_, fun s t hp h => ?_⟩
  · exact ⟨_, step_of_isIdle hp, step_of_isIdle (s := { s with state := v }) hp⟩
  · cases (step_of_isGenerate hp).symm.trans h
    simp

/-- Settles O46, from the lemmas on steps and runs that change or keep `INC`. -/
theorem onlyConstructionWritesIncrement : Obligations.OnlyConstructionWritesIncrement := by
  unfold Obligations.OnlyConstructionWritesIncrement
  refine ⟨fun s t h hne => PortInput.constructs_iff.mp (constructs_of_step_inc_ne h hne),
    fun s xs hxs => runInputs_inc_of_not_constructs xs hxs s, fun s t hp h => ?_⟩
  cases (step_of_isGenerate hp).symm.trans h
  simpa using nextState_sub_nextState_zero s.state s.inc

/-- Settles O49: a step keeps `INC` or is a construction, and a construction leaves it odd. -/
theorem incrementStaysOdd : Obligations.IncrementStaysOdd := by
  unfold Obligations.IncrementStaysOdd
  exact ⟨runSteps_invariant step_incOdd,
    fun s t h hne => incOdd_of_step_constructs (constructs_of_step_inc_ne h hne) h, defaultInc_odd⟩

/-- Settles O36: both constants are the literals of 10_state.md R29. -/
theorem resetValuesOfBothRegisters : Obligations.ResetValuesOfBothRegisters :=
  ⟨State.reset_state, State.reset_inc⟩

end Sys2Proof.Machine
end

/-! SUPPORT. How commands, steps and runs depend on what the host will present later. -/
section

namespace Sys2Proof.Machine

/-- A command does the same whatever the host will present after it (20_memory.md R46). -/
theorem exec_setInputs {i : Instr} {s t : State} (xs : List PortInput) (h : exec i s = .next t) :
    exec i { s with inputs := xs } = .next { t with inputs := xs } := by
  obtain ⟨rfl, rfl⟩ | ⟨a, b, rfl, rfl⟩ | ⟨rfl, rfl⟩ | ⟨rfl, rfl⟩ := exec_cases h
  · exact exec_idle _
  · exact exec_new a b _
  · exact exec_default _
  · exact exec_generate _

/-- A step sees the input at its own edge and none presented later (20_memory.md R46). -/
theorem step_setInputs_cons {p : PortInput} {xs : List PortInput} {s t : State} (ys : List PortInput)
    (h : step { s with inputs := p :: xs } = .next t) :
    step { s with inputs := p :: ys } = .next { t with inputs := ys } := by
  obtain ⟨hr, rfl⟩ | ⟨hr, h⟩ := step_cases h
  · exact step_of_rst (s := { s with inputs := p :: ys }) hr
  · have hexec := exec_setInputs ys h
    exact (step_of_command (s := { s with inputs := p :: ys }) hr).trans hexec

/-- A run takes its inputs from its list, and not from what the state it starts in was to be presented. -/
theorem runInputs_setInputs (xs ys : List PortInput) (s : State) :
    runInputs xs { s with inputs := ys } = runInputs xs s := rfl

/-- Every run completes (60_exceptions.md R150). -/
theorem runInputs_total (xs : List PortInput) (s : State) : ∃ t, runInputs xs s = .next t := by
  induction xs generalizing s with
  | nil => exact ⟨_, runInputs_nil s⟩
  | cons p xs ih =>
    obtain ⟨t, ht⟩ := step_total { s with inputs := p :: xs }
    rw [runInputs_cons ht]
    exact ih t

/-- A run goes on from the state that a first part of its inputs ends in (20_memory.md R46). -/
theorem runInputs_append {xs : List PortInput} (ys : List PortInput) {s u : State} (h : runInputs xs s = .next u) :
    runInputs (xs ++ ys) s = runInputs ys u := by
  induction xs generalizing s with
  | nil =>
    cases (runInputs_nil s).symm.trans h
    exact (runInputs_setInputs ys [] s).symm
  | cons p xs ih =>
    obtain ⟨t, ht⟩ := step_total { s with inputs := p :: xs }
    rw [runInputs_cons ht] at h
    calc
      runInputs (p :: (xs ++ ys)) s = runInputs (xs ++ ys) { t with inputs := xs ++ ys } :=
        runInputs_cons (step_setInputs_cons (xs ++ ys) ht)
      _ = runInputs (xs ++ ys) t := runInputs_setInputs _ _ _
      _ = runInputs ys u := ih h

end Sys2Proof.Machine
end

/-! SUPPORT. The statement of 20_memory.md. -/
section

namespace Sys2Proof.Machine

/-- Settles O51: the run of `xs` always ends somewhere, and the run of `xs ++ ys` goes on from there. -/
theorem commandsTakeEffectInOrder : Obligations.CommandsTakeEffectInOrder := by
  unfold Obligations.CommandsTakeEffectInOrder
  intro s t xs ys
  constructor
  · intro h
    obtain ⟨u, hu⟩ := runInputs_total xs s
    exact ⟨u, hu, (runInputs_append ys hu).symm.trans h⟩
  · rintro ⟨u, hu, h⟩
    exact (runInputs_append ys hu).trans h

end Sys2Proof.Machine
end

/-! SUPPORT. The command word: its fields as numbers, and what the decoder and the encoder make of them. -/
section

namespace Sys2Proof

/-! ### The three fields of a word -/

@[simp] theorem opField_toNat (w : CmdWord) : (opField w).toNat = w.toNat % 4 := by
  simp [opField]

@[simp] theorem aField_toNat (w : CmdWord) : (aField w).toNat = w.toNat / 2 ^ 2 % 2 ^ 64 := by
  simp [aField, Nat.shiftRight_eq_div_pow]

@[simp] theorem bField_toNat (w : CmdWord) : (bField w).toNat = w.toNat / 2 ^ 66 := by
  have hw := w.isLt
  simp only [bField, BitVec.extractLsb'_toNat, Nat.shiftRight_eq_div_pow]
  omega

/-- The number of three values put side by side, the first lowest (30_encoding.md R61). -/
theorem toNat_append_fields (op : Op) (a b : Word) :
    (b ++ a ++ op).toNat = op.toNat + a.toNat * 2 ^ 2 + b.toNat * 2 ^ 66 := by
  rw [BitVec.toNat_append, BitVec.toNat_append, ← Nat.shiftLeft_add_eq_or_of_lt a.isLt,
    ← Nat.shiftLeft_add_eq_or_of_lt op.isLt, Nat.shiftLeft_eq, Nat.shiftLeft_eq]
  ring

/-- A word's number is made from its three fields, and from no other three values (30_encoding.md R61). -/
theorem toNat_eq_iff_fields {w : CmdWord} {op : Op} {a b : Word} :
    w.toNat = op.toNat + a.toNat * 2 ^ 2 + b.toNat * 2 ^ 66 ↔ opField w = op ∧ aField w = a ∧ bField w = b := by
  have hw := w.isLt
  have hop := op.isLt
  have ha := a.isLt
  have hb := b.isLt
  simp only [← BitVec.toNat_inj, opField_toNat, aField_toNat, bField_toNat]
  omega

/-- The fields stand next to each other and cover the word (30_encoding.md R61). -/
theorem append_fields (w : CmdWord) : bField w ++ aField w ++ opField w = w := by
  apply BitVec.eq_of_toNat_eq
  rw [toNat_append_fields, toNat_eq_iff_fields.mpr ⟨rfl, rfl, rfl⟩]

theorem opField_eq_iff {w : CmdWord} {op : Op} : opField w = op ↔ w.toNat % 4 = op.toNat := by
  rw [← BitVec.toNat_inj, opField_toNat]

/-! ### What a word decodes to -/

/-- The four values of OP, and the command each selects (30_encoding.md R64, R65). -/
theorem decode_cases (w : CmdWord) :
    (opField w = 0b00#2 ∧ decode w = .idle) ∨
    (opField w = 0b01#2 ∧ decode w = .new (aField w) (bField w)) ∨
    (opField w = 0b10#2 ∧ decode w = .default) ∨
    (opField w = 0b11#2 ∧ decode w = .generate) := by
  unfold decode
  split_ifs with h0 h1 h2
  · exact .inl ⟨h0, rfl⟩
  · exact .inr (.inl ⟨h1, rfl⟩)
  · exact .inr (.inr (.inl ⟨h2, rfl⟩))
  · have h3 : opField w = 0b11#2 := by bv_omega
    exact .inr (.inr (.inr ⟨h3, rfl⟩))

theorem decode_eq_idle_iff {w : CmdWord} : decode w = .idle ↔ opField w = 0b00#2 := by
  obtain ⟨hop, hd⟩ | ⟨hop, hd⟩ | ⟨hop, hd⟩ | ⟨hop, hd⟩ := decode_cases w <;> simp [hop, hd]

theorem decode_eq_new_iff {w : CmdWord} {a b : Word} :
    decode w = .new a b ↔ opField w = 0b01#2 ∧ aField w = a ∧ bField w = b := by
  obtain ⟨hop, hd⟩ | ⟨hop, hd⟩ | ⟨hop, hd⟩ | ⟨hop, hd⟩ := decode_cases w <;> simp [hop, hd]

theorem decode_eq_default_iff {w : CmdWord} : decode w = .default ↔ opField w = 0b10#2 := by
  obtain ⟨hop, hd⟩ | ⟨hop, hd⟩ | ⟨hop, hd⟩ | ⟨hop, hd⟩ := decode_cases w <;> simp [hop, hd]

theorem decode_eq_generate_iff {w : CmdWord} : decode w = .generate ↔ opField w = 0b11#2 := by
  obtain ⟨hop, hd⟩ | ⟨hop, hd⟩ | ⟨hop, hd⟩ | ⟨hop, hd⟩ := decode_cases w <;> simp [hop, hd]

/-- The port carries the whole of a word of 130 bits (30_encoding.md R60). -/
@[simp] theorem portWord_of_toNat (w : CmdWord) : portWord 130 w.toNat = w := by
  rw [portWord, Nat.mod_eq_of_lt w.isLt, BitVec.ofNat_toNat, BitVec.setWidth_eq]

/-! ### The canonical word of a command -/

/-- The canonical word is `{B, A, OP}` of the command's opcode and operands (30_encoding.md R61, R66). -/
theorem encode_eq_append (i : Instr) : encode i = operandB i ++ operandA i ++ opcode i := by
  apply BitVec.eq_of_getLsbD_eq
  intro j hj
  rw [BitVec.getLsbD_append, BitVec.getLsbD_append]
  by_cases h2 : j < 2
  · simp [encode, h2, show j < 66 by omega, hj]
  · have hop : (opcode i).getLsbD j = false := BitVec.getLsbD_of_ge _ _ (by omega)
    by_cases h66 : j < 66
    · simp [encode, h2, h66, hj, hop, show j - 2 < 64 by omega]
    · have ha : (operandA i).getLsbD (j - 2) = false := BitVec.getLsbD_of_ge _ _ (by omega)
      simp [encode, h2, h66, hj, hop, ha, show ¬ j - 2 < 64 by omega, show j - 2 - 64 = j - 66 by omega]

/-- The fields of a command's canonical word are its opcode and operands (30_encoding.md R66). -/
theorem fields_encode (i : Instr) :
    opField (encode i) = opcode i ∧ aField (encode i) = operandA i ∧ bField (encode i) = operandB i := by
  rw [← toNat_eq_iff_fields, encode_eq_append, toNat_append_fields]

/-- A command's canonical word decodes back to it (30_encoding.md R66). -/
@[simp] theorem decode_encode (i : Instr) : decode (encode i) = i := by
  obtain ⟨hop, ha, hb⟩ := fields_encode i
  cases i with
  | idle => exact decode_eq_idle_iff.mpr hop
  | new a b => exact decode_eq_new_iff.mpr ⟨hop, ha, hb⟩
  | default => exact decode_eq_default_iff.mpr hop
  | generate => exact decode_eq_generate_iff.mpr hop

end Sys2Proof

namespace Sys2Proof.Machine

/-! ### The response ports -/

/-- `rsp_valid` is high exactly beside a GENERATE input (30_encoding.md R68). -/
theorem State.rspValid_eq_isGenerate (s : State) : s.rspValid = s.port.isGenerate := by
  rw [Bool.eq_iff_iff, PortInput.isGenerate_iff, decode_eq_generate_iff]
  simp [State.rspValid]

/-- A step that is no GENERATE has no response (30_encoding.md R68). -/
theorem step_rsp_of_not_isGenerate {s t : State} (hp : s.port.isGenerate = false) (h : step s = .next t) :
    t.rsp = none := by
  obtain ⟨-, rfl⟩ | ⟨hr, h⟩ := step_cases h
  · simp
  · obtain ⟨-, rfl⟩ | ⟨a, b, -, rfl⟩ | ⟨-, rfl⟩ | ⟨hd, -⟩ := exec_cases h
    · simp
    · simp
    · simp
    · simp [PortInput.isGenerate, hr, hd] at hp

end Sys2Proof.Machine
end

/-! SUPPORT. The statements of 30_encoding.md. -/
section

namespace Sys2Proof.Machine

/-- Settles O1: the fields are adjacent slices of the word, and their values are the only ones its number is made of. -/
theorem commandWordIsItsThreeFields : Obligations.CommandWordIsItsThreeFields := by
  unfold Obligations.CommandWordIsItsThreeFields
  exact fun w => ⟨(append_fields w).symm, toNat_eq_iff_fields.mpr ⟨rfl, rfl, rfl⟩⟩

/-- Settles O2: each command is one value of OP, and a NEW word has one number. -/
theorem opcodeAloneSelectsCommand : Obligations.OpcodeAloneSelectsCommand := by
  unfold Obligations.OpcodeAloneSelectsCommand
  intro w
  refine ⟨toNat_eq_iff_fields.mpr ⟨rfl, rfl, rfl⟩, decode_eq_idle_iff.trans opField_eq_iff, fun a b h => ?_,
    fun a b => decode_eq_new_iff.trans toNat_eq_iff_fields.symm, decode_eq_default_iff.trans opField_eq_iff,
    decode_eq_generate_iff.trans opField_eq_iff, ?_, fun s a b h => ?_⟩
  · obtain ⟨-, rfl, rfl⟩ := decode_eq_new_iff.mp h
    exact ⟨rfl, rfl⟩
  · rw [decodeTableWord, portWord_of_toNat]
  · obtain ⟨-, -, rfl⟩ := decode_eq_new_iff.mp h
    rw [h]
    exact ⟨_, exec_new a _ s, rfl⟩

/-- Settles O3: the words are the encoder's, and a canonical word decodes back to its command. -/
theorem canonicalWordOfEachCommand : Obligations.CanonicalWordOfEachCommand := by
  unfold Obligations.CanonicalWordOfEachCommand
  exact ⟨by decide, by decide, by decide, fun a b => rfl, fun i => rfl, fun w => decode_encode (decode w)⟩

/-- Settles O42: `rsp_valid` is high exactly beside a GENERATE, whose step responds, and no other step does. -/
theorem responsePortsMatchTheStep : Obligations.ResponsePortsMatchTheStep := by
  unfold Obligations.ResponsePortsMatchTheStep
  intro s
  rw [State.rspData, State.rspValid_eq_isGenerate]
  refine ⟨PortInput.isGenerate_iff, fun h => if_pos h, fun h => if_neg (by simp [h]), ?_⟩
  cases hp : s.port.isGenerate with
  | true => exact ⟨_, step_of_isGenerate hp, by simp⟩
  | false =>
    obtain ⟨t, ht⟩ := step_total s
    exact ⟨t, ht, by simpa using step_rsp_of_not_isGenerate hp ht⟩

end Sys2Proof.Machine
end

/-! SUPPORT. The datapath functions: what number or which bits each one makes. -/
section

namespace Sys2Proof.Machine

/-! ### MULADD64 and NEXT_STATE -/

/-- The definition in the order of factors of 40_datapath.md R80. -/
theorem mulAdd64_eq (a m c : Word) : mulAdd64 a m c = a * m + c := by
  rw [mulAdd64, BitVec.mul_comm]

/-- The carries out of bit 63 of the product and of the sum are discarded (40_datapath.md R80). -/
theorem mulAdd64_toNat (a m c : Word) : (mulAdd64 a m c).toNat = (a.toNat * m.toNat + c.toNat) % 2 ^ 64 := by
  rw [mulAdd64_eq, BitVec.toNat_add, BitVec.toNat_mul, Nat.mod_add_mod]

theorem mulAdd64_zero_left (m c : Word) : mulAdd64 0#64 m c = c := by
  rw [mulAdd64_eq, BitVec.zero_mul, BitVec.zero_add]

theorem mulAdd64_zero_right (a m : Word) : mulAdd64 a m 0#64 = a * m := by
  rw [mulAdd64_eq, BitVec.add_zero]

/-- The recurrence over the exact integers, with the multiplier written out (40_datapath.md R86). -/
theorem nextState_toNat (s inc : Word) :
    (nextState s inc).toNat = (6364136223846793005 * s.toNat + inc.toNat) % 2 ^ 64 := by
  have hmul : Config.mul.toNat = 6364136223846793005 := rfl
  rw [nextState, mulAdd64_toNat, hmul, Nat.mul_comm]

/-! ### INC_DERIVE -/

/-- The increment is bits 62 to 0 of `initseq` above a 1 bit (40_datapath.md R81). -/
theorem incDerive_eq_append (x : Word) : incDerive x = x.extractLsb' 0 63 ++ 1#1 := by
  apply BitVec.eq_of_getLsbD_eq
  intro i hi
  rw [BitVec.getLsbD_append]
  cases i with
  | zero => simp [incDerive]
  | succ i => simp [incDerive, hi, show i < 63 by omega, BitVec.getLsbD_eq_getElem (show i < 64 by omega)]

/-- Bit 63 of `initseq` is discarded (40_datapath.md R81). -/
theorem incDerive_xor_msb (x : Word) : incDerive (x ^^^ 0x8000000000000000#64) = incDerive x := by
  have hlow : (0x8000000000000000#64).extractLsb' 0 63 = 0#63 := by decide
  rw [incDerive_eq_append, incDerive_eq_append, BitVec.extractLsb'_xor, hlow, BitVec.xor_zero]

/-! ### ROT5 -/

/-- The rotation amount is the number of the five top bits (40_datapath.md R83). -/
theorem rot5_toNat (s : Word) : (rot5 s).toNat = s.toNat / 2 ^ 59 := by
  have hs := s.isLt
  simp only [rot5, Config.rotShift, BitVec.extractLsb'_toNat, Nat.shiftRight_eq_div_pow]
  omega

/-- The source's shift and truncation to 32 bits lose nothing of the rotation amount (40_datapath.md R83). -/
theorem setWidth_ushiftRight_toNat_eq_rot5 (s : Word) :
    ((s >>> 59).setWidth 32 : BitVec 32).toNat = (rot5 s).toNat := by
  have hs := s.isLt
  rw [rot5_toNat, BitVec.toNat_setWidth, BitVec.toNat_ushiftRight, Nat.shiftRight_eq_div_pow]
  omega

theorem rot5_eq_zero_of_lt {s : Word} (hs : s.toNat < 2 ^ 59) : rot5 s = 0#5 := by
  apply BitVec.eq_of_toNat_eq
  rw [rot5_toNat, Nat.div_eq_of_lt hs, BitVec.toNat_zero]

/-! ### ROTR32 -/

/-- Every bit of the rotation: the right shift supplies the bits below `32 - r`, and the left shift those that come
round (40_datapath.md R84). -/
theorem rotr32_getLsbD (x : Out) (r : Rot) {i : Nat} (hi : i < 32) :
    (rotr32 x r).getLsbD i = x.getLsbD ((i + r.toNat) % 32) := by
  have hr := r.isLt
  rw [rotr32, BitVec.getLsbD_or, BitVec.getLsbD_ushiftRight, BitVec.getLsbD_shiftLeft]
  by_cases h0 : r.toNat = 0
  · simp [h0, hi, Nat.mod_eq_of_lt hi]
  · have hshift : (32 - r.toNat) % 32 = 32 - r.toNat := Nat.mod_eq_of_lt (by omega)
    rw [hshift]
    by_cases hround : i + r.toNat < 32
    · simp [Nat.mod_eq_of_lt hround, Nat.add_comm r.toNat i, show i < 32 - r.toNat by omega]
    · have hout : x.getLsbD (r.toNat + i) = false := BitVec.getLsbD_of_ge _ _ (by omega)
      have hin : (i + r.toNat) % 32 = i - (32 - r.toNat) := by omega
      simp [hout, hin, hi, show ¬ i < 32 - r.toNat by omega]

/-- A rotation by 0 is the identity (40_datapath.md R84). -/
theorem rotr32_zero (x : Out) : rotr32 x 0#5 = x := by
  simp [rotr32]

/-- A rotation right by 31 is one left by 1 (40_datapath.md R84). -/
theorem rotr32_31 (x : Out) : rotr32 x 31#5 = x.rotateLeft 1 := by
  rw [rotr32, BitVec.or_comm]
  rfl

end Sys2Proof.Machine
end

/-! SUPPORT. The first statements of 40_datapath.md: what each datapath function is. -/
section

namespace Sys2Proof.Machine

/-- Settles O9: the append form of the increment drops bit 63 and forces bit 0. -/
theorem incrementDerivation : Obligations.IncrementDerivation := by
  unfold Obligations.IncrementDerivation
  exact ⟨fun x => ⟨rfl, incDerive_eq_append x, (incDerive_xor_msb x).symm, incDerive_odd x⟩,
    by decide, by decide, by decide, by decide, by decide⟩

/-- Settles O12: the bit law, and the two rotation amounts at the ends of the range. -/
theorem rotationIsCircular : Obligations.RotationIsCircular := by
  unfold Obligations.RotationIsCircular
  exact ⟨fun x r => ⟨fun i => rotr32_getLsbD x r, rfl⟩, rotr32_zero, rotr32_31,
    by decide, by decide, by decide, by decide⟩

/-- Settles O8: the definition with its factors exchanged, and its number. -/
theorem multiplyAddWraps : Obligations.MultiplyAddWraps := by
  unfold Obligations.MultiplyAddWraps
  exact ⟨fun a m c => ⟨mulAdd64_eq a m c, mulAdd64_toNat a m c⟩, mulAdd64_zero_left _,
    fun a => mulAdd64_zero_right a _, by decide, by decide, by decide⟩

/-- Settles O11: the amount is a 5-bit value, so it is at most 31. -/
theorem rotateAmountIsTopFiveBits : Obligations.RotateAmountIsTopFiveBits := by
  unfold Obligations.RotateAmountIsTopFiveBits
  exact ⟨fun s => ⟨rot5_toNat s, setWidth_ushiftRight_toNat_eq_rot5 s, Nat.le_of_lt_succ (rot5 s).isLt, Iff.rfl⟩,
    by decide, by decide⟩

/-- Settles O13: five top bits of zero make the rotation one by 0. -/
theorem outputPermutation : Obligations.OutputPermutation := by
  unfold Obligations.OutputPermutation
  refine ⟨fun s => rfl, fun s hs => ?_, by decide, by decide, by decide, by decide⟩
  rw [permute32, rot5_eq_zero_of_lt hs, rotr32_zero]

/-- Settles O15: NEXT_STATE is MULADD64 by the multiplier, whose number is written out. -/
theorem nextStateRecurrence : Obligations.NextStateRecurrence := by
  unfold Obligations.NextStateRecurrence
  exact ⟨fun s inc => ⟨rfl, nextState_toNat s inc⟩, mulAdd64_zero_left _, by decide, by decide, by decide⟩

end Sys2Proof.Machine
end

/-! SUPPORT. The registers NEW constructs, and how runs depend on the registers they start from. -/
section

namespace Sys2Proof.Machine

/-! ### The registers NEW constructs -/

/-- The increment over the exact integers (40_datapath.md R81). -/
theorem incDerive_toNat (x : Word) : (incDerive x).toNat = (2 * x.toNat + 1) % 2 ^ 64 := by
  have hone : (1#1).toNat < 2 ^ 1 := (1#1).isLt
  rw [incDerive_eq_append, BitVec.toNat_append, ← Nat.shiftLeft_add_eq_or_of_lt hone, Nat.shiftLeft_eq,
    BitVec.extractLsb'_toNat, Nat.shiftRight_zero, BitVec.toNat_ofNat]
  omega

/-- SEED_STATE is NEXT_STATE of the sum of increment and seed (40_datapath.md R87). -/
theorem seedState_eq_nextState (initstate inc : Word) : seedState initstate inc = nextState (inc + initstate) inc :=
  rfl

/-- The seeded state over the exact integers (40_datapath.md R87). -/
theorem seedState_toNat (initstate inc : Word) : (seedState initstate inc).toNat =
    (6364136223846793005 * (inc.toNat + initstate.toNat) + inc.toNat) % 2 ^ 64 := by
  rw [seedState_eq_nextState, nextState_toNat, BitVec.toNat_add]
  omega

/-- When increment and seed wrap to 0, the seeded state is the increment (40_datapath.md R87). -/
theorem seedState_of_add_eq_zero {initstate inc : Word} (h : inc + initstate = 0#64) :
    seedState initstate inc = inc := by
  rw [seedState, h, mulAdd64_zero_left]

/-- NEW answers the state with the derived increment, the seeded state and no response (41_construction.md R100). -/
theorem exec_new_of_registers {a b inc st : Word} (hinc : incDerive b = inc) (hst : seedState a inc = st) (s : State) :
    exec (.new a b) s = .next { s with inc := inc, state := st, rsp := none } := by
  subst hinc hst
  exact exec_new a b s

/-! ### Runs -/

/-- A run that starts with a command performs it on the state as it is and goes on from there. -/
theorem runInputs_cons_command {w : CmdWord} {s t : State} (xs : List PortInput) (h : exec (decode w) s = .next t) :
    runInputs (⟨false, w⟩ :: xs) s = runInputs xs t := by
  have hexec := exec_setInputs xs h
  have hstep := (step_of_command (s := { s with inputs := ⟨false, w⟩ :: xs }) rfl).trans hexec
  exact (runInputs_cons hstep).trans (runInputs_setInputs xs xs t)

/-- A command adds to the observation its own response and nothing else (70_reset_and_hazards.md R192). -/
theorem exec_responses {i : Instr} {s t : State} (h : exec i s = .next t) :
    t.responses = s.responses ++ t.rsp.toList := by
  obtain ⟨-, rfl⟩ | ⟨a, b, -, rfl⟩ | ⟨-, rfl⟩ | ⟨-, rfl⟩ := exec_cases h <;> simp

/-- A step adds to the observation its own response and nothing else (70_reset_and_hazards.md R192). -/
theorem step_responses {s t : State} (h : step s = .next t) : t.responses = s.responses ++ t.rsp.toList := by
  obtain ⟨-, rfl⟩ | ⟨-, h⟩ := step_cases h
  · simp
  · simpa using exec_responses h

/-- The registers a run ends with and the responses it gains are functions of the registers it starts from. -/
theorem runInputs_congr_registers (xs : List PortInput) {s₁ s₂ : State} (hstate : s₁.state = s₂.state)
    (hinc : s₁.inc = s₂.inc) :
    ∃ t₁ t₂ rs, runInputs xs s₁ = .next t₁ ∧ runInputs xs s₂ = .next t₂ ∧
      t₁.responses = s₁.responses ++ rs ∧ t₂.responses = s₂.responses ++ rs ∧
      t₁.state = t₂.state ∧ t₁.inc = t₂.inc := by
  induction xs generalizing s₁ s₂ with
  | nil => exact ⟨_, _, [], runInputs_nil s₁, runInputs_nil s₂, by simp, by simp, hstate, hinc⟩
  | cons p xs ih =>
    obtain ⟨t₁, t₂, h₁, h₂, htstate, htinc, hrsp⟩ := noHiddenStateDecidesAStep
      { s₁ with inputs := p :: xs } { s₂ with inputs := p :: xs } hstate hinc rfl
    obtain ⟨u₁, u₂, rs, hu₁, hu₂, hrs₁, hrs₂, hustate, huinc⟩ := ih htstate htinc
    refine ⟨u₁, u₂, t₁.rsp.toList ++ rs, (runInputs_cons h₁).trans hu₁, (runInputs_cons h₂).trans hu₂, ?_, ?_,
      hustate, huinc⟩
    · rw [hrs₁, step_responses h₁, List.append_assoc]
    · rw [hrs₂, step_responses h₂, hrsp, List.append_assoc]

/-- A run that starts with a construction reads neither register it starts from (41_construction.md R107). -/
theorem runInputs_overwrites_of_constructs {p : PortInput} (hp : p.constructs = true) (xs : List PortInput) (s : State)
    (v w : Word) : runInputs (p :: xs) { s with state := v, inc := w } = runInputs (p :: xs) s := by
  obtain ⟨t, ht⟩ := step_total { s with inputs := p :: xs }
  have hstep := step_overwrites_of_constructs (s := { s with inputs := p :: xs }) hp v w
  exact (runInputs_cons (hstep.trans ht)).trans (runInputs_cons ht).symm

end Sys2Proof.Machine
end

/-! SUPPORT. The statements of 41_construction.md. -/
section

namespace Sys2Proof.Machine

/-- Settles O22: both registers NEW constructs, as numbers, and its corner cases. -/
theorem newConstructsFromSeedPair : Obligations.NewConstructsFromSeedPair := by
  unfold Obligations.NewConstructsFromSeedPair
  refine fun s => ⟨fun a b => exec_new_of_registers ?_ ?_ s,
    fun a b h => exec_new_of_registers rfl (seedState_of_add_eq_zero h) s,
    exec_new_of_registers (by decide) (by decide) s, exec_new_of_registers (by decide) (by decide) s,
    exec_new_of_registers (by decide) (by decide) s⟩
  · apply BitVec.eq_of_toNat_eq
    rw [incDerive_toNat, BitVec.toNat_ofNat]
  · apply BitVec.eq_of_toNat_eq
    rw [seedState_toNat, BitVec.toNat_ofNat, BitVec.toNat_ofNat]
    omega

/-- Settles O23: the derived increment drops bit 63 of `initseq`, and NEW reads `initseq` through it alone. -/
theorem topSeedBitIsIgnored : Obligations.TopSeedBitIsIgnored := by
  unfold Obligations.TopSeedBitIsIgnored
  refine ⟨fun s a b => ?_, fun s =>
    ⟨exec_new_of_registers (by decide) (by decide) s, exec_new_of_registers (by decide) (by decide) s⟩⟩
  rw [exec_new, exec_new, incDerive_xor_msb]

/-- Settles O27: the second run is one from the first core's registers, since the construction overwrites them. -/
theorem constructionIsDeterministic : Obligations.ConstructionIsDeterministic := by
  unfold Obligations.ConstructionIsDeterministic
  intro s₁ s₂ p xs hp
  rw [← runInputs_overwrites_of_constructs hp xs s₂ s₁.state s₁.inc]
  exact runInputs_congr_registers (p :: xs) rfl rfl

/-- Settles O24: NEW writes the derived increment, which is odd. -/
theorem newLeavesIncrementOdd : Obligations.NewLeavesIncrementOdd := by
  unfold Obligations.NewLeavesIncrementOdd
  refine fun s a b => ⟨_, exec_new_of_registers rfl rfl s, incDerive_odd b, ?_⟩
  rw [incDerive_toNat]
  omega

/-- Settles O25: the constants are literals, a reset loads them the same way, and the responses are those of the default
state and of its successor. -/
theorem defaultLoadsConstants : Obligations.DefaultLoadsConstants := by
  unfold Obligations.DefaultLoadsConstants
  refine fun s => ⟨exec_default s, fun cmd => step_present_rst s cmd, fun t h => ?_, ?_⟩
  · cases (exec_default s).symm.trans h
    exact exec_default _
  · have hfirst : permute32 Config.defaultState = 0x152ca78d#32 := by decide
    have hsecond : permute32 (nextState Config.defaultState Config.defaultInc) = 0x027c6003#32 := by decide
    have hdefault : decode 2#130 = .default := by decide
    have hgenerate : decode 3#130 = .generate := by decide
    rw [runInputs_cons_command _ (hdefault ▸ exec_default s), runInputs_cons_command _ (hgenerate ▸ exec_generate _),
      runInputs_cons_command _ (hgenerate ▸ exec_generate _)]
    exact ⟨_, runInputs_nil _, by simp [hfirst, hsecond]⟩

end Sys2Proof.Machine
end

/-! SUPPORT. What GENERATE answers, by the values of its response and of the new `STATE`. -/
section

namespace Sys2Proof.Machine

/-- GENERATE answers the state with the successor of `STATE`, and with the response of the old one, recorded (42_step.md
R120). -/
theorem exec_generate_of_registers {st : Word} {out : Out} {s : State} (hst : nextState s.state s.inc = st)
    (hout : permute32 s.state = out) :
    exec .generate s = .next { s with state := st, rsp := some out, responses := s.responses ++ [out] } := by
  subst hst hout
  exact exec_generate s

/-- With 31 in the top five bits the permutation rotates left by 1 (42_step.md R120). -/
theorem permute32_of_rot5_eq_31 {s : Word} (h : rot5 s = 31#5) : permute32 s = (xsh32 s).rotateLeft 1 := by
  rw [permute32, h, rotr32_31]

end Sys2Proof.Machine
end

/-! SUPPORT. The first statements of 42_step.md: the response and the new `STATE` of one GENERATE. -/
section

namespace Sys2Proof.Machine

/-- Settles O29: the successor as a number, and each corner case by the values of the recurrence and of the output
permutation there. -/
theorem generateRespondsAndAdvances : Obligations.GenerateRespondsAndAdvances := by
  unfold Obligations.GenerateRespondsAndAdvances
  obtain ⟨-, hnextZero, hnextOnes, -⟩ := nextStateRecurrence
  obtain ⟨-, -, houtZero, houtOnes, -⟩ := outputPermutation
  refine fun s => ⟨exec_generate_of_registers ?_ rfl, fun hrot => ?_, fun hzero => ?_, fun hones hinc => ?_⟩
  · apply BitVec.eq_of_toNat_eq
    rw [nextState_toNat, BitVec.toNat_ofNat]
  · exact ⟨_, exec_generate_of_registers rfl (permute32_of_rot5_eq_31 hrot), rfl⟩
  · have hst : nextState s.state s.inc = s.inc := by rw [hzero, hnextZero]
    exact ⟨_, exec_generate_of_registers hst (hzero ▸ houtZero), rfl, rfl⟩
  · have hst : nextState s.state s.inc = 0xa7ae0bd2b36a80d4#64 := by rw [hones, hinc, hnextOnes]
    exact ⟨_, exec_generate_of_registers hst (hones ▸ houtOnes), rfl, rfl⟩

/-- Settles O30: a `STATE` below 2^59 has its top five bits zero, so the permutation does not rotate. -/
theorem rotationByZeroGivesXorshift : Obligations.RotationByZeroGivesXorshift := by
  unfold Obligations.RotationByZeroGivesXorshift
  obtain ⟨-, hunrotated, -⟩ := outputPermutation
  exact fun s hs => ⟨_, exec_generate_of_registers rfl (hunrotated s.state hs), rfl, rfl⟩

/-- Settles O31: both results are functions of the old registers; from the default pair the new `STATE` permutes to the
source's second output. -/
theorem responseIsFromCapturedState : Obligations.ResponseIsFromCapturedState := by
  unfold Obligations.ResponseIsFromCapturedState
  refine ⟨fun s => ⟨_, exec_generate_of_registers rfl rfl, rfl, rfl⟩, fun s hstate hinc => ?_⟩
  have hst : nextState s.state s.inc = 0xc83015ca079f7e1a#64 := by rw [hstate, hinc]; decide
  have hout : permute32 s.state = 0x152ca78d#32 := by rw [hstate]; decide
  have hsecond : permute32 0xc83015ca079f7e1a#64 = 0x027c6003#32 := by decide
  exact ⟨_, exec_generate_of_registers hst hout, rfl, hsecond⟩

end Sys2Proof.Machine
end

/-! SUPPORT. The statement of 43_idle.md: what an IDLE step leaves unchanged. -/
section

namespace Sys2Proof.Machine

/-- Settles O34: OP alone makes a word IDLE, the step on it performs the command, and IDLE writes `rsp` only. -/
theorem idleChangesNothing : Obligations.IdleChangesNothing := by
  unfold Obligations.IdleChangesNothing
  refine fun s => ⟨exec_idle s, fun w hop => ?_⟩
  have hidle : decode w = .idle := decode_eq_idle_iff.mpr hop
  calc step (s.present ⟨false, w⟩)
    _ = exec (decode w) s := step_present_command s w
    _ = exec .idle s := by rw [hidle]
    _ = .next { s with rsp := none } := exec_idle s

end Sys2Proof.Machine
end

/-! SUPPORT. The statement of 60_exceptions.md: no fault exists, and no step and no run stops. -/
section

namespace Sys2Proof.Machine

/-- A run of no steps ends where it starts. -/
theorem runSteps_zero (s : State) : runSteps 0 s = .next s := rfl

/-- Every number of steps completes: the first step does, and the run goes on from its next state (60_exceptions.md
R150). -/
theorem safeRun_total (k : Nat) (s : State) : SafeRun k s := by
  induction k generalizing s with
  | zero => exact ⟨s, runSteps_zero s⟩
  | succ k ih =>
    obtain ⟨t, ht⟩ := step_total s
    obtain ⟨u, hu⟩ := ih t
    exact ⟨u, (runSteps_succ ht k).trans hu⟩

/-- Settles O41: `Fault` has no constructor, and the steps and the runs complete by the lemmas on each. -/
theorem everyStepCompletes : Obligations.EveryStepCompletes := by
  unfold Obligations.EveryStepCompletes
  exact ⟨⟨fun r => nomatch r⟩, step_total, safeRun_total⟩

end Sys2Proof.Machine
end

/-! SUPPORT. Runs that end in a command, that start with a reset, and of two commands at successive edges. -/
section

namespace Sys2Proof.Machine

/-- A run of one command performs it, and the host then has nothing left to present. -/
theorem runInputs_command (w : CmdWord) (s : State) :
    runInputs [⟨false, w⟩] s = exec (decode w) { s with inputs := [] } := by
  obtain ⟨t, ht⟩ := exec_total (decode w) s
  rw [runInputs_cons_command [] ht, runInputs_nil, exec_setInputs [] ht]

/-- A run that starts with a reset goes on from the default pair, whatever word stands beside `rst`
(70_reset_and_hazards.md R181). -/
theorem runInputs_cons_rst (w : CmdWord) (xs : List PortInput) (s : State) :
    runInputs (⟨true, w⟩ :: xs) s = runInputs xs s.resetStep :=
  (runInputs_cons (step_of_rst rfl)).trans (runInputs_setInputs xs xs s.resetStep)

/-- The second of two commands at successive edges is performed on the state the first one leaves
(70_reset_and_hazards.md R185). -/
theorem runInputs_encode_pair {i j : Instr} {s t u : State} (hi : exec i s = .next t) (hj : exec j t = .next u) :
    runInputs [⟨false, encode i⟩, ⟨false, encode j⟩] s = .next { u with inputs := [] } := by
  have hfirst : exec (decode (encode i)) s = .next t := by rwa [decode_encode]
  rw [runInputs_cons_command _ hfirst, runInputs_command, decode_encode]
  exact exec_setInputs [] hj

end Sys2Proof.Machine
end

/-! SUPPORT. The statements of 70_reset_and_hazards.md on a command beside a reset and on back-to-back commands. -/
section

namespace Sys2Proof.Machine

/-- Settles O38: the reset step does not mention the word beside `rst`, and a run goes on from the state it leaves. -/
theorem resetDiscardsTheCommand : Obligations.ResetDiscardsTheCommand := by
  unfold Obligations.ResetDiscardsTheCommand
  refine fun s cmd cmd' => ⟨?_, ⟨_, step_present_rst s cmd, ?_, ?_⟩, ?_⟩
  · rw [step_present_rst, step_present_rst]
  · exact State.resetStep_rsp s
  · exact State.resetStep_responses s
  · calc runInputs [⟨true, cmd⟩, ⟨false, cmd⟩] s
      _ = runInputs [⟨false, cmd⟩] s.resetStep := runInputs_cons_rst cmd _ s
      _ = exec (decode cmd) { s.resetStep with inputs := [] } := runInputs_command cmd _

/-- Settles O52: for each pair, the second command's answer on the state the first one's answer gives. -/
theorem noHazardBetweenCommands : Obligations.NoHazardBetweenCommands := by
  unfold Obligations.NoHazardBetweenCommands
  refine fun s a b => ⟨?newGenerate, ?defaultGenerate, ?generateGenerate, ?generateNew, ?generateDefault⟩
  case newGenerate => exact ⟨_, runInputs_encode_pair (exec_new a b s) (exec_generate _), by simp⟩
  case defaultGenerate => exact ⟨_, runInputs_encode_pair (exec_default s) (exec_generate _), by simp⟩
  case generateGenerate => exact ⟨_, runInputs_encode_pair (exec_generate s) (exec_generate _), by simp⟩
  case generateNew => exact ⟨_, runInputs_encode_pair (exec_generate s) (exec_new a b _), by simp⟩
  case generateDefault => exact ⟨_, runInputs_encode_pair (exec_generate s) (exec_default _), by simp⟩

end Sys2Proof.Machine
end

/-! SUPPORT. Commands that any operands make well formed, words whose ignored fields differ, and the invariant over one
step and over a run. -/
section

namespace Sys2Proof

/-- An operand in a 64-bit field is in range (30_encoding.md R69). -/
@[simp] theorem operandInRange_toNat (v : Word) : operandInRange v.toNat = true := by
  simpa [operandInRange] using v.isLt

/-- Every command is legal, with any operands (30_encoding.md R65). -/
theorem Instr.wellFormed_eq_true (i : Instr) : i.wellFormed = true := by
  cases i with
  | idle => rfl
  | new a b => simp [Instr.wellFormed]
  | default => rfl
  | generate => rfl

/-- Clearing all bits above OP leaves the word whose operand fields are zero (30_encoding.md R61). -/
theorem and_three_eq_append (w : CmdWord) : w &&& 3#130 = 0#64 ++ 0#64 ++ opField w := by
  have hmask : w.toNat &&& 3 = w.toNat % 4 := Nat.and_two_pow_sub_one_eq_mod w.toNat 2
  apply BitVec.eq_of_toNat_eq
  rw [toNat_append_fields]
  simpa using hmask

/-- The operand fields of a word are ignored unless its opcode is NEW's (30_encoding.md R65). -/
theorem decode_eq_of_opField_eq {w w' : CmdWord} (hop : opField w = opField w') (hne : opField w ≠ 0b01#2) :
    decode w = decode w' := by
  obtain ⟨h, hd⟩ | ⟨h, -⟩ | ⟨h, hd⟩ | ⟨h, hd⟩ := decode_cases w
  · exact hd.trans (decode_eq_idle_iff.mpr (hop ▸ h)).symm
  · exact absurd h hne
  · exact hd.trans (decode_eq_default_iff.mpr (hop ▸ h)).symm
  · exact hd.trans (decode_eq_generate_iff.mpr (hop ▸ h)).symm

end Sys2Proof

namespace Sys2Proof.Machine

/-- A step records the response it gives, and one without a response gives none to record (70_reset_and_hazards.md
R192). -/
theorem responseRecorded_of_step {s t : State} (h : step s = .next t) : t.ResponseRecorded := by
  intro v hv
  have hrsp : t.rsp = some v := hv
  simp [step_responses h, hrsp]

/-- A run keeps `INC` odd (10_state.md R23). -/
theorem runInputs_incOdd {xs : List PortInput} {s t : State} (hs : s.IncOdd) (h : runInputs xs s = .next t) :
    t.IncOdd :=
  runSteps_invariant step_incOdd xs.length { s with inputs := xs } t hs h

end Sys2Proof.Machine
end

/-! SUPPORT. The statements on the encoder and the decoder as inverses, on ignored fields, and on the invariant. -/
section

namespace Sys2Proof.Machine

/-- Settles O4: both operands are whole in the canonical word, and OP selects the command back. -/
theorem decodeOfEncodeIsIdentity : Obligations.DecodeOfEncodeIsIdentity := by
  unfold Obligations.DecodeOfEncodeIsIdentity
  exact fun i => ⟨i.wellFormed_eq_true, decode_encode i⟩

/-- Settles O47: `INC` is kept or replaced by an odd value, and the step's own response is the newest recorded. -/
theorem everyStepKeepsTheInvariant : Obligations.EveryStepKeepsTheInvariant := by
  unfold Obligations.EveryStepKeepsTheInvariant
  rintro s t ⟨hodd, -⟩ h
  exact ⟨step_incOdd s t hodd h, responseRecorded_of_step h⟩

/-- Settles O48: the default increment is odd, and reset leaves no response. -/
theorem resetMeetsTheInvariant : Obligations.ResetMeetsTheInvariant := by
  unfold Obligations.ResetMeetsTheInvariant
  exact ⟨defaultInc_odd, fun v hv => by simp at hv⟩

/-- Settles O5: both words are their three fields side by side; NEW keeps A and B, the other commands have zeros there. -/
theorem encodeOfDecodeIsCanonical : Obligations.EncodeOfDecodeIsCanonical := by
  unfold Obligations.EncodeOfDecodeIsCanonical
  intro w
  rw [and_three_eq_append, encode_eq_append]
  obtain ⟨hop, hd⟩ | ⟨hop, hd⟩ | ⟨hop, hd⟩ | ⟨hop, hd⟩ := decode_cases w
  · rw [hd, hop]; rfl
  · rw [hd, if_pos hop]
    change bField w ++ aField w ++ 0b01#2 = w
    rw [← hop, append_fields]
  · rw [hd, hop]; rfl
  · rw [hd, hop]; rfl

/-- Settles O7: the two words decode to one command, which the step performs. -/
theorem ignoredFieldsHaveNoEffect : Obligations.IgnoredFieldsHaveNoEffect := by
  unfold Obligations.IgnoredFieldsHaveNoEffect
  intro s w w' hmod hne
  have hop : opField w = opField w' := opField_eq_iff.mpr (hmod.trans (opField_toNat w').symm)
  have hnew : opField w ≠ 0b01#2 := fun h => hne (opField_eq_iff.mp h)
  calc step (s.present ⟨false, w⟩)
    _ = exec (decode w) s := step_present_command s w
    _ = exec (decode w') s := by rw [decode_eq_of_opField_eq hop hnew]
    _ = step (s.present ⟨false, w'⟩) := (step_present_command s w').symm

/-- Settles O6: the decoder evaluated on each word. -/
theorem decodedWordsOfTheSpec : Obligations.DecodedWordsOfTheSpec := by
  unfold Obligations.DecodedWordsOfTheSpec
  exact ⟨by decide, by decide, by decide, by decide, by decide, by decide, by decide, by decide⟩

/-- Settles O40: the port carries the first input, a placed table word is that input, and the quiet word is IDLE's. -/
theorem stepRunsTheDecodedCommand : Obligations.StepRunsTheDecodedCommand := by
  unfold Obligations.StepRunsTheDecodedCommand
  refine ⟨fun s w ps h => ?_, fun s nbits n i h => ?_, fun s h => ?_⟩
  · have htake : s.takeInput = { s with inputs := ps } := by rw [State.takeInput, h, List.tail_cons]
    have hport := State.port_of_cons h
    rw [step_of_command (by rw [hport]), hport, htake]
  · have hd : decode (portWord nbits n) = i := Option.some.inj h
    rw [State.withFetchWord, step_present_command, hd]
  · have htake : s.takeInput = s := by rw [State.takeInput, h, List.tail_nil, ← h]
    have hport := State.port_of_nil h
    have hidle : decode PortInput.quiet.cmd = .idle := by decide
    rw [step_of_command (by rw [hport]; rfl), hport, htake, hidle]

end Sys2Proof.Machine
end

/-! SUPPORT. The bits of the output permutation, the inverse of NEXT_STATE, and which operands of NEW give which
registers. -/
section

namespace Sys2Proof.Machine

/-! ### XSH32 and PERMUTE32, bit by bit -/

/-- Every bit of the xorshift: the bits from 45 up meet none above bit 63 (40_datapath.md R82). -/
theorem xsh32_getLsbD (s : Word) {i : Nat} (hi : i < 32) : (xsh32 s).getLsbD i =
    if i ≤ 18 then (s.getLsbD (i + 27) ^^ s.getLsbD (i + 45)) else s.getLsbD (i + 27) := by
  have hbit : (xsh32 s).getLsbD i = (s.getLsbD (i + 45) ^^ s.getLsbD (i + 27)) := by
    simp [xsh32, Config.xshA, Config.xshB, hi, Nat.add_comm 27 i, show 18 + (i + 27) = i + 45 by omega]
  rw [hbit]
  split_ifs with h
  · exact Bool.xor_comm _ _
  · have hout : s.getLsbD (i + 45) = false := BitVec.getLsbD_of_ge _ _ (by omega)
    rw [hout, Bool.false_xor]

/-- A bit of the output permutation is the bit of the xorshift the rotation brings there (40_datapath.md R85). -/
theorem permute32_getLsbD (s : Word) {i : Nat} (hi : i < 32) :
    (permute32 s).getLsbD i = (xsh32 s).getLsbD ((i + s.toNat / 2 ^ 59) % 32) := by
  rw [permute32, rotr32_getLsbD _ _ hi, rot5_toNat]

/-! ### PREV_STATE -/

/-- The multiplier is odd, and `MUL_INV` is its inverse (00_scope.md R6). -/
theorem mulInv_mul : Config.mulInv * Config.mul = 1#64 := by decide

theorem prevState_nextState (s inc : Word) : prevState (nextState s inc) inc = s := by
  rw [prevState, nextState, mulAdd64, BitVec.add_sub_cancel, ← BitVec.mul_assoc, mulInv_mul, BitVec.one_mul]

theorem nextState_prevState (s inc : Word) : nextState (prevState s inc) inc = s := by
  rw [prevState, nextState, mulAdd64, ← BitVec.mul_assoc, BitVec.mul_comm Config.mul, mulInv_mul, BitVec.one_mul,
    BitVec.sub_add_cancel]

theorem nextState_bijective (inc : Word) : Function.Bijective (fun s => nextState s inc) :=
  Function.bijective_iff_has_inverse.mpr
    ⟨fun s => prevState s inc, fun s => prevState_nextState s inc, fun s => nextState_prevState s inc⟩

/-- Seeding adds the increment, then applies NEXT_STATE, and both are bijections (10_state.md R32). -/
theorem seedState_bijective (inc : Word) : Function.Bijective (fun initstate => seedState initstate inc) :=
  (nextState_bijective inc).comp (AddGroup.addLeft_bijective inc)

/-- Successors of one state differ by their increments (42_step.md section 1). -/
theorem nextState_sub_nextState (s inc₁ inc₂ : Word) : nextState s inc₁ - nextState s inc₂ = inc₁ - inc₂ :=
  add_sub_add_left_eq_sub inc₁ inc₂ (Config.mul * s)

/-! ### Parity -/

theorem getLsbD_zero_iff_odd (v : Word) : v.getLsbD 0 = true ↔ v.toNat % 2 = 1 := by
  rw [BitVec.getLsbD, Nat.testBit_zero, decide_eq_true_eq]

/-- With an odd increment NEXT_STATE changes the parity of `STATE`, so no state is its own successor. -/
theorem nextState_ne_self {s inc : Word} (hinc : inc.getLsbD 0 = true) : nextState s inc ≠ s := by
  intro h
  have hodd := (getLsbD_zero_iff_odd inc).mp hinc
  have hnat := nextState_toNat s inc
  rw [h] at hnat
  omega

/-! ### The increments NEW selects -/

/-- The increment holds the low 63 bits of `initseq` and no other (40_datapath.md R81). -/
theorem incDerive_inj_iff {x y : Word} : incDerive x = incDerive y ↔ x.toNat % 2 ^ 63 = y.toNat % 2 ^ 63 := by
  rw [← BitVec.toNat_inj, incDerive_toNat, incDerive_toNat]
  omega

/-- Half of an odd increment derives it (40_datapath.md R81). -/
theorem incDerive_ushiftRight_one {inc : Word} (hinc : inc.toNat % 2 = 1) : incDerive (inc >>> 1) = inc := by
  have hlt := inc.isLt
  apply BitVec.eq_of_toNat_eq
  rw [incDerive_toNat, BitVec.toNat_ushiftRight, Nat.shiftRight_eq_div_pow]
  omega

/-- A NEW whose operands give the default constants is a DEFAULT (41_construction.md R106). -/
theorem exec_new_eq_exec_default {a b : Word} (hinc : incDerive b = Config.defaultInc)
    (hst : seedState a Config.defaultInc = Config.defaultState) (s : State) : exec (.new a b) s = exec .default s :=
  exec_new_of_registers hinc hst s

end Sys2Proof.Machine
end

/-! SUPPORT. The remaining statements on the datapath functions alone, but for the period. -/
section

namespace Sys2Proof.Machine

/-- Settles O10: the definition, and its bits. -/
theorem xorshiftBits : Obligations.XorshiftBits := by
  unfold Obligations.XorshiftBits
  exact fun s => ⟨rfl, fun i => xsh32_getLsbD s⟩

/-- Settles O14: the rotation selects bit `k` of the xorshift. -/
theorem outputPermutationBits : Obligations.OutputPermutationBits := by
  unfold Obligations.OutputPermutationBits
  rintro s i k hi rfl
  rw [permute32_getLsbD s hi]
  exact xsh32_getLsbD s (Nat.mod_lt _ (by decide))

/-- Settles O16: the number of the seeded state, and its corner cases. -/
theorem seedStateFormula : Obligations.SeedStateFormula := by
  unfold Obligations.SeedStateFormula
  exact ⟨fun a inc => ⟨seedState_eq_nextState a inc, seedState_toNat a inc⟩, fun _ _ => seedState_of_add_eq_zero,
    by decide, by decide, by decide⟩

/-- Settles O17: the product with `MUL` is undone by the product with its inverse. -/
theorem nextStateIsInvertible : Obligations.NextStateIsInvertible := by
  unfold Obligations.NextStateIsInvertible
  exact fun inc => ⟨fun s => prevState_nextState s inc, fun s => nextState_prevState s inc, nextState_bijective inc⟩

/-- Settles O18: seeding is an addition and then NEXT_STATE. -/
theorem seedingIsBijective : Obligations.SeedingIsBijective := by
  unfold Obligations.SeedingIsBijective
  exact seedState_bijective

/-- Settles O19: `initseq` is read through its low 63 bits, and half of an odd value derives that value. -/
theorem seedSelectsTheStream : Obligations.SeedSelectsTheStream := by
  unfold Obligations.SeedSelectsTheStream
  refine ⟨fun x y => incDerive_inj_iff, fun inc hinc => ⟨inc >>> 1, ?_, incDerive_ushiftRight_one hinc⟩⟩
  have hlt := inc.isLt
  rw [BitVec.toNat_ushiftRight, Nat.shiftRight_eq_div_pow]
  omega

end Sys2Proof.Machine
end

/-! SUPPORT. The period of the LCG (40_datapath.md section 6, law 3), over the exact integers: `k` steps add a geometric sum
times an odd number, and the multiplier is 1 modulo 4, so the sum has as many factors 2 as `k`. -/
section

namespace Sys2Proof.Machine

/-- `1 + a + … + a^(k-1)`: what `k` applications of an LCG with multiplier `a` add is this many times what the first
adds. -/
def geomSum (a : ℤ) (k : Nat) : ℤ := ∑ i ∈ Finset.range k, a ^ i

/-- What NEXT_STATE adds to a state, `(MUL - 1) * s + inc` over the exact integers. -/
def stateGain (s inc : Word) : ℤ := 6364136223846793004 * s.toNat + inc.toNat

theorem geomSum_succ (a : ℤ) (k : Nat) : geomSum a (k + 1) = a * geomSum a k + 1 := geom_sum_succ

/-- With `a` equal to 1 modulo 4, the geometric sum of `k` powers of `a` has as many factors 2 as `k`: lifting the
exponent gives those of `a ^ k - 1`, of which `a - 1` has its own. -/
theorem two_pow_dvd_geomSum_iff {a : ℤ} (ha : 4 ∣ a - 1) (ha1 : a ≠ 1) (m k : Nat) :
    2 ^ m ∣ geomSum a k ↔ (2 : ℤ) ^ m ∣ k := by
  have hodd : ¬ 2 ∣ a := by omega
  have hlift : emultiplicity 2 (a ^ k - 1) = emultiplicity 2 (a - 1) + emultiplicity (2 : ℤ) k := by
    simpa using Int.two_pow_sub_pow' (y := 1) k ha hodd
  have hfactor : emultiplicity 2 (a ^ k - 1) = emultiplicity 2 (a - 1) + emultiplicity 2 (geomSum a k) := by
    rw [← mul_geom_sum, emultiplicity_mul Int.prime_two, geomSum]
  have hfinite : emultiplicity 2 (a - 1) ≠ ⊤ :=
    finiteMultiplicity_iff_emultiplicity_ne_top.mp
      (Int.finiteMultiplicity_iff.mpr ⟨by decide, sub_ne_zero.mpr ha1⟩)
  have heq : emultiplicity 2 (geomSum a k) = emultiplicity (2 : ℤ) k :=
    ENat.add_right_injective_of_ne_top hfinite (hfactor.symm.trans hlift)
  rw [pow_dvd_iff_le_emultiplicity, pow_dvd_iff_le_emultiplicity, heq]

/-- The recurrence over the exact integers, modulo 2^64 (40_datapath.md R86). -/
theorem nextState_modEq (s inc : Word) :
    ((nextState s inc).toNat : ℤ) ≡ 6364136223846793005 * s.toNat + inc.toNat [ZMOD 2 ^ 64] := by
  rw [nextState_toNat]
  push_cast
  exact Int.mod_modEq _ _

/-- What `k` applications of NEXT_STATE add to a state, modulo 2^64. -/
theorem nextStateIter_sub_modEq (s inc : Word) (k : Nat) :
    ((nextStateIter s inc k).toNat - s.toNat : ℤ) ≡ geomSum 6364136223846793005 k * stateGain s inc [ZMOD 2 ^ 64] := by
  induction k with
  | zero => simp [nextStateIter, geomSum]
  | succ k ih =>
    calc ((nextStateIter s inc (k + 1)).toNat - s.toNat : ℤ)
      _ ≡ 6364136223846793005 * (nextStateIter s inc k).toNat + inc.toNat - s.toNat [ZMOD 2 ^ 64] :=
        (nextState_modEq _ inc).sub_right _
      _ = 6364136223846793005 * ((nextStateIter s inc k).toNat - s.toNat) + stateGain s inc := by
        rw [stateGain]
        ring
      _ ≡ 6364136223846793005 * (geomSum 6364136223846793005 k * stateGain s inc) + stateGain s inc [ZMOD 2 ^ 64] :=
        (ih.mul_left _).add_right _
      _ = geomSum 6364136223846793005 (k + 1) * stateGain s inc := by
        rw [geomSum_succ]
        ring

theorem not_two_dvd_stateGain (s : Word) {inc : Word} (hinc : inc.getLsbD 0 = true) : ¬ 2 ∣ stateGain s inc := by
  have hodd := (getLsbD_zero_iff_odd inc).mp hinc
  rw [stateGain]
  omega

/-- Two words are equal when 2^64 divides the difference of their numbers. -/
theorem eq_iff_two_pow_dvd_sub {v w : Word} : v = w ↔ (2 : ℤ) ^ 64 ∣ v.toNat - w.toNat := by
  have hv := v.isLt
  have hw := w.isLt
  rw [← BitVec.toNat_inj]
  omega

end Sys2Proof.Machine
end

/-! SUPPORT. The statement on the period of the LCG. -/
section

namespace Sys2Proof.Machine

/-- Settles O20: `k` steps add the geometric sum times an odd number, so 2^64 divides what they add when it divides
the sum, and that is when it divides `k`. -/
theorem lcgHasFullPeriod : Obligations.LcgHasFullPeriod := by
  unfold Obligations.LcgHasFullPeriod
  intro s inc k hinc
  have hcoprime : IsCoprime ((2 : ℤ) ^ 64) (stateGain s inc) :=
    (Int.prime_two.coprime_iff_not_dvd.mpr (not_two_dvd_stateGain s hinc)).pow_left
  calc nextStateIter s inc k = s
    _ ↔ (2 : ℤ) ^ 64 ∣ (nextStateIter s inc k).toNat - s.toNat := eq_iff_two_pow_dvd_sub
    _ ↔ (2 : ℤ) ^ 64 ∣ geomSum 6364136223846793005 k * stateGain s inc := (nextStateIter_sub_modEq s inc k).dvd_iff
    _ ↔ (2 : ℤ) ^ 64 ∣ geomSum 6364136223846793005 k :=
      ⟨hcoprime.dvd_of_dvd_mul_right, fun h => h.mul_right _⟩
    _ ↔ (2 : ℤ) ^ 64 ∣ k := two_pow_dvd_geomSum_iff (by decide) (by decide) 64 k
    _ ↔ 2 ^ 64 ∣ k := by exact_mod_cast Int.natCast_dvd_natCast (m := 2 ^ 64) (n := k)

end Sys2Proof.Machine
end

/-! SUPPORT. Runs taken apart at their first input, and what IDLE, GENERATE and reset inputs do in them. -/
section

namespace Sys2Proof.Machine

/-! ### The first input of a run -/

/-- A run performs its first input as presented at the very next edge, and goes on from the state that leaves. -/
theorem runInputs_cons_present {p : PortInput} {s t : State} (xs : List PortInput)
    (h : step (s.present p) = .next t) : runInputs (p :: xs) s = runInputs xs t :=
  (runInputs_cons (step_setInputs_cons xs h)).trans (runInputs_setInputs xs xs t)

theorem runInputs_cons_idle {p : PortInput} (hp : p.isIdle = true) (xs : List PortInput) (s : State) :
    runInputs (p :: xs) s = runInputs xs s.noRespond :=
  runInputs_cons_present xs (step_of_isIdle (s := s.present p) hp)

theorem runInputs_cons_generate {p : PortInput} (hp : p.isGenerate = true) (xs : List PortInput) (s : State) :
    runInputs (p :: xs) s =
      runInputs xs ((s.setState (nextState s.state s.inc)).respond (permute32 s.state)) :=
  runInputs_cons_present xs (step_of_isGenerate (s := s.present p) hp)

theorem PortInput.isGenerate_of_isIdle {p : PortInput} (hp : p.isIdle = true) : p.isGenerate = false := by
  obtain ⟨-, hd⟩ := PortInput.isIdle_iff.mp hp
  simp [PortInput.isGenerate, hd]

/-- The observation of a run is a function of the observation it starts from (70_reset_and_hazards.md R192). -/
theorem runInputs_congr_observation (xs : List PortInput) {s₁ s₂ : State} (h : s₁.observation = s₂.observation) :
    ∃ t₁ t₂, runInputs xs s₁ = .next t₁ ∧ runInputs xs s₂ = .next t₂ ∧ t₁.observation = t₂.observation := by
  obtain ⟨hresponses, hstate, hinc⟩ :
      s₁.responses = s₂.responses ∧ s₁.state = s₂.state ∧ s₁.inc = s₂.inc := by
    simpa [State.observation] using h
  obtain ⟨t₁, t₂, rs, h₁, h₂, hrs₁, hrs₂, hst, hi⟩ := runInputs_congr_registers xs hstate hinc
  exact ⟨t₁, t₂, h₁, h₂, by simp [State.observation, hrs₁, hrs₂, hst, hi, hresponses]⟩

/-! ### Iterated NEXT_STATE -/

@[simp] theorem nextStateIter_zero (s inc : Word) : nextStateIter s inc 0 = s := rfl

/-- The first of `j + 1` applications may be taken first (42_step.md R122). -/
theorem nextStateIter_nextState (s inc : Word) (j : Nat) :
    nextStateIter (nextState s inc) inc j = nextStateIter s inc (j + 1) := by
  induction j with
  | zero => rfl
  | succ j ih => exact congrArg (fun v => nextState v inc) ih

/-- The responses of `k` GENERATE from the pair `(st, inc)`, in order (42_step.md section 1). -/
def generateResponses (st inc : Word) (k : Nat) : List Out :=
  (List.range k).map fun j => permute32 (nextStateIter st inc j)

@[simp] theorem generateResponses_zero (st inc : Word) : generateResponses st inc 0 = [] := rfl

theorem generateResponses_succ (st inc : Word) (k : Nat) :
    generateResponses st inc (k + 1) = permute32 st :: generateResponses (nextState st inc) inc k := by
  simp [generateResponses, List.range_succ_eq_map, Function.comp_def, nextStateIter_nextState]

/-- A run of GENERATE and IDLE: an IDLE leaves the registers, and a GENERATE gives the first response of those to come
(42_step.md section 1). -/
theorem runInputs_of_forall_generate_or_idle (xs : List PortInput) (s : State)
    (hxs : ∀ p ∈ xs, p.isGenerate = true ∨ p.isIdle = true) :
    ∃ t, runInputs xs s = .next t ∧
      t.state = nextStateIter s.state s.inc (xs.countP PortInput.isGenerate) ∧ t.inc = s.inc ∧
      t.responses = s.responses ++ generateResponses s.state s.inc (xs.countP PortInput.isGenerate) := by
  induction xs generalizing s with
  | nil => exact ⟨_, runInputs_nil s, by simp⟩
  | cons p xs ih =>
    obtain ⟨hp, hxs⟩ := List.forall_mem_cons.mp hxs
    obtain hgenerate | hidle := hp
    · rw [List.countP_cons_of_pos hgenerate, runInputs_cons_generate hgenerate, ← nextStateIter_nextState,
        generateResponses_succ]
      simpa using ih ((s.setState (nextState s.state s.inc)).respond (permute32 s.state)) hxs
    · rw [List.countP_cons_of_neg (by simp [PortInput.isGenerate_of_isIdle hidle]), runInputs_cons_idle hidle]
      exact ih s.noRespond hxs

/-! ### Resets in a run -/

@[simp] theorem State.resetStep_resetStep (s : State) : s.resetStep.resetStep = s.resetStep := rfl

/-- One reset or more is one reset (70_reset_and_hazards.md section 1). -/
theorem runInputs_of_forall_rst {xs : List PortInput} (hne : xs ≠ []) (hrst : ∀ p ∈ xs, p.rst = true) (s : State) :
    runInputs xs s = .next { s.resetStep with inputs := [] } := by
  induction xs generalizing s with
  | nil => exact absurd rfl hne
  | cons p xs ih =>
    obtain ⟨hp, hxs⟩ := List.forall_mem_cons.mp hrst
    have hfirst : runInputs (p :: xs) s = runInputs xs s.resetStep :=
      runInputs_cons_present xs (step_of_rst (s := s.present p) hp)
    rw [hfirst]
    cases xs with
    | nil => exact runInputs_nil _
    | cons q ys => rw [ih (List.cons_ne_nil q ys) hxs, State.resetStep_resetStep]

/-- The source's first default output (42_step.md R124). -/
theorem permute32_defaultState : permute32 Config.defaultState = 0x152ca78d#32 := by decide

end Sys2Proof.Machine
end

/-! SUPPORT. The remaining statements on the commands and on runs. -/
section

namespace Sys2Proof.Machine

/-- Settles O21: both new `STATE` values are the multiply-add, by the definitions of SEED_STATE and NEXT_STATE. -/
theorem oneMultiplyAddServesBoth : Obligations.OneMultiplyAddServesBoth := by
  unfold Obligations.OneMultiplyAddServesBoth
  exact fun s a b => ⟨⟨_, exec_new_of_registers rfl rfl s, rfl⟩, ⟨_, exec_generate_of_registers rfl rfl, rfl⟩⟩

/-- Settles O26: NEW writes `STATE` and `INC` from its operands alone, so their values there decide. -/
theorem defaultPairIsReachedByNew : Obligations.DefaultPairIsReachedByNew := by
  unfold Obligations.DefaultPairIsReachedByNew
  refine fun s => ⟨fun h => ?_, exec_new_eq_exec_default (by decide) (by decide) s,
    exec_new_eq_exec_default (by decide) (by decide) s⟩
  have hne : incDerive 0#64 ≠ Config.defaultInc := by decide
  rw [exec_new, exec_default] at h
  have hinc := congrArg State.inc (Host.Outcome.next.inj h)
  exact hne (by simpa using hinc)

/-- Settles O28: the constructions read no register; GENERATE with an odd `INC` changes the parity of `STATE`. -/
theorem constructionIsIdempotent : Obligations.ConstructionIsIdempotent := by
  unfold Obligations.ConstructionIsIdempotent
  refine fun s => ⟨fun a b => ⟨_, exec_new a b s, exec_new a b _⟩, ⟨_, exec_default s, exec_default _⟩,
    ⟨_, _, exec_generate s, exec_generate _, ?_, fun hodd => ⟨?_, ?_⟩⟩⟩
  · simp [nextStateIter]
  · simpa using nextState_ne_self hodd
  · simpa using nextState_ne_self hodd

/-- Settles O32: the response and the product are functions of `STATE`, and the increment is only added. -/
theorem responseIgnoresIncrement : Obligations.ResponseIgnoresIncrement := by
  unfold Obligations.ResponseIgnoresIncrement
  refine ⟨fun s₁ s₂ hstate => ⟨_, _, exec_generate s₁, exec_generate s₂, ?_, ?_⟩, by decide, by decide⟩
  · simp [hstate]
  · simpa [hstate] using nextState_sub_nextState s₂.state s₁.inc s₂.inc

/-- Settles O33: the run of GENERATE and IDLE, its responses written out. -/
theorem responseSequenceClosedForm : Obligations.ResponseSequenceClosedForm := by
  unfold Obligations.ResponseSequenceClosedForm
  exact fun s xs => runInputs_of_forall_generate_or_idle xs s

/-- Settles O35, by induction on the inputs: an IDLE step leaves the observation, and what a run adds to it is a function
of it. -/
theorem idleStepsAreInvisible : Obligations.IdleStepsAreInvisible := by
  unfold Obligations.IdleStepsAreInvisible
  intro s xs
  induction xs generalizing s with
  | nil => exact ⟨_, _, runInputs_nil s, runInputs_nil s, rfl⟩
  | cons p xs ih =>
    cases hidle : p.isIdle with
    | true =>
      obtain ⟨t, u, ht, hu, hobs⟩ := ih s.noRespond
      obtain ⟨u₁, u₂, hu₁, hu₂, hobs'⟩ := runInputs_congr_observation (xs.filter fun p => !p.isIdle)
        (s₁ := s.noRespond) (s₂ := s) rfl
      cases hu.symm.trans hu₁
      rw [runInputs_cons_idle hidle, List.filter_cons_of_neg (by simp [hidle])]
      exact ⟨t, u₂, ht, hu₂, hobs.trans hobs'⟩
    | false =>
      obtain ⟨t, ht⟩ := step_total (s.present p)
      rw [List.filter_cons_of_pos (by simp [hidle]), runInputs_cons_present _ ht, runInputs_cons_present _ ht]
      exact ih t

/-- Settles O37: the reset step loads the constants, `rst` holds both ports at 0, and a GENERATE then permutes the default
state. -/
theorem resetLoadsTheDefaultPair : Obligations.ResetLoadsTheDefaultPair := by
  unfold Obligations.ResetLoadsTheDefaultPair
  refine fun s cmd => ⟨rfl, rfl, step_present_rst s cmd, ?_⟩
  have hdecode : decode (encode .generate) = .generate := decode_encode _
  rw [runInputs_cons_rst, runInputs_cons_command [] (hdecode ▸ exec_generate _)]
  exact ⟨_, runInputs_nil _, by simp [permute32_defaultState]⟩

/-- Settles O39: the held reset is one reset step, and a GENERATE then permutes the default state. -/
theorem heldResetIsOneReset : Obligations.HeldResetIsOneReset := by
  unfold Obligations.HeldResetIsOneReset
  refine fun s xs hne hrst => ⟨_, runInputs_of_forall_rst hne hrst s, rfl, rfl, rfl, rfl, fun w hop => ?_⟩
  have hgenerate : PortInput.isGenerate ⟨false, w⟩ = true :=
    PortInput.isGenerate_iff.mpr ⟨rfl, decode_eq_generate_iff.mpr hop⟩
  exact ⟨_, step_of_isGenerate hgenerate, by simp [permute32_defaultState]⟩

/-- Settles O44: a run reads nothing of the state but the registers. -/
theorem equalInstancesRespondAlike : Obligations.EqualInstancesRespondAlike := by
  unfold Obligations.EqualInstancesRespondAlike
  exact fun s₁ s₂ xs => runInputs_congr_registers xs

/-- Settles O50: a run from reset keeps `INC` odd; and one NEW reaches each pair, as `INC` selects `initseq` and seeding
is onto. -/
theorem reachableExactlyOddIncrements : Obligations.ReachableExactlyOddIncrements := by
  unfold Obligations.ReachableExactlyOddIncrements
  intro st inc
  constructor
  · rintro ⟨xs, t, h, -, rfl⟩
    exact runInputs_incOdd defaultInc_odd h
  · intro hodd
    have hinc := incDerive_ushiftRight_one ((getLsbD_zero_iff_odd inc).mp hodd)
    obtain ⟨initstate, hst⟩ := (seedState_bijective inc).surjective st
    have hrun : runInputs [⟨false, encode (.new initstate (inc >>> 1))⟩] State.reset =
        .next { State.reset with state := st, inc := inc } := by
      rw [runInputs_command, decode_encode]
      exact exec_new_of_registers hinc hst _
    exact ⟨_, _, hrun, rfl, rfl⟩

end Sys2Proof.Machine
end

/-! SUPPORT. The assembler: when an operand, a line and a text are accepted. -/
section

namespace Sys2Proof.Machine

/-! ### Operands -/

theorem readOperand_of_none {cs : List Char} (h : readLiteral (trimBlanks cs) = none) :
    readOperand cs = .error .badOperands := by
  simp [readOperand, h]

theorem readOperand_of_lt {cs : List Char} {n : Nat} (h : readLiteral (trimBlanks cs) = some n) (hn : n < 2 ^ 64) :
    readOperand cs = .ok (BitVec.ofNat 64 n) := by
  simpa [readOperand, h, operandInRange] using hn

theorem readOperand_of_le {cs : List Char} {n : Nat} (h : readLiteral (trimBlanks cs) = some n) (hn : 2 ^ 64 ≤ n) :
    readOperand cs = .error .operandTooLarge := by
  simpa [readOperand, h, operandInRange] using hn

/-- An operand is accepted at its own value (30_encoding.md R69). -/
theorem readOperand_eq_ok_iff {cs : List Char} {v : Word} :
    readOperand cs = .ok v ↔ readLiteral (trimBlanks cs) = some v.toNat := by
  constructor
  · intro h
    cases hlit : readLiteral (trimBlanks cs) with
    | none => simp [readOperand_of_none hlit] at h
    | some n =>
      by_cases hn : n < 2 ^ 64
      · cases (readOperand_of_lt hlit hn).symm.trans h
        rw [BitVec.toNat_ofNat, Nat.mod_eq_of_lt hn]
      · simp [readOperand_of_le hlit (Nat.le_of_not_lt hn)] at h
  · intro h
    rw [readOperand_of_lt h v.isLt, BitVec.ofNat_toNat, BitVec.setWidth_eq]

/-! ### Texts -/

/-- The port inputs of what the lines of a program hold, in order (30_encoding.md R69). -/
def portInputsOf (items : List (Option AsmItem)) : List PortInput := (items.filterMap id).map AsmItem.portInput

theorem portInputsOf_cons (item : Option AsmItem) (items : List (Option AsmItem)) :
    portInputsOf (item :: items) = (item.map AsmItem.portInput).toList ++ portInputsOf items := by
  cases item <;> rfl

/-- A program assembles when its first line reads and the others assemble, to the input of its first line and then those
of the others. -/
theorem assembleLines_cons_eq_ok_iff {line : List Char} {lines : List (List Char)} {ps : List PortInput} :
    assembleLines (line :: lines) = .ok ps ↔ ∃ item rest, readLine line = .ok item ∧ assembleLines lines = .ok rest ∧
      ps = (item.map AsmItem.portInput).toList ++ rest := by
  rw [assembleLines]
  cases readLine line with
  | error e => simp
  | ok item =>
    cases assembleLines lines with
    | error e => cases item <;> simp
    | ok rest => cases item <;> simp [eq_comm]

/-- A program assembles when every line reads, to the inputs of what the lines hold (30_encoding.md R69). -/
theorem assembleLines_eq_ok_iff {lines : List (List Char)} {ps : List PortInput} :
    assembleLines lines = .ok ps ↔
      ∃ items : List (Option AsmItem), lines.map readLine = items.map AsmResult.ok ∧ ps = portInputsOf items := by
  induction lines generalizing ps with
  | nil =>
    constructor
    · intro h
      cases h
      exact ⟨[], rfl, rfl⟩
    · rintro ⟨items, hmap, rfl⟩
      rw [List.map_nil, eq_comm, List.map_eq_nil_iff] at hmap
      rw [hmap]
      rfl
  | cons line lines ih =>
    rw [assembleLines_cons_eq_ok_iff]
    constructor
    · rintro ⟨item, rest, hline, hrest, rfl⟩
      obtain ⟨items, hitems, rfl⟩ := ih.mp hrest
      exact ⟨item :: items, by simp [hline, hitems], (portInputsOf_cons item items).symm⟩
    · rintro ⟨items, hmap, rfl⟩
      cases items with
      | nil => simp at hmap
      | cons item items =>
        obtain ⟨hline, hitems⟩ := List.cons.inj hmap
        exact ⟨item, portInputsOf items, hline, ih.mpr ⟨items, hitems, rfl⟩, portInputsOf_cons item items⟩

/-- An item's input with `rst = 0` carries the canonical word of its command (30_encoding.md R66). -/
theorem encode_decode_portInput {item : AsmItem} (h : item.portInput.rst = false) :
    encode (decode item.portInput.cmd) = item.portInput.cmd := by
  cases item with
  | command i => exact congrArg encode (decode_encode i)
  | reset => simp [AsmItem.portInput] at h

end Sys2Proof.Machine
end

/-! SUPPORT. The statements on the assembler. -/
section

namespace Sys2Proof.Machine

/-- Settles O53: the three kinds of operand, and the value of an accepted one. -/
theorem operandOutOfRangeIsRejected : Obligations.OperandOutOfRangeIsRejected := by
  unfold Obligations.OperandOutOfRangeIsRejected
  refine ⟨fun cs v => readOperand_eq_ok_iff, fun cs n h => ⟨readOperand_of_le h, fun hn => ?_⟩,
    fun cs => readOperand_of_none⟩
  exact ⟨_, readOperand_of_lt h hn, by rw [BitVec.toNat_ofNat, Nat.mod_eq_of_lt hn]⟩

/-- Settles O54: the lines are read one by one, and every emitted input is that of an item. -/
theorem assembledWordsAreCanonical : Obligations.AssembledWordsAreCanonical := by
  unfold Obligations.AssembledWordsAreCanonical
  refine ⟨fun text ps => assembleLines_eq_ok_iff, fun i => rfl, rfl, fun text ps h p hp hrst => ?_⟩
  obtain ⟨items, -, rfl⟩ := assembleLines_eq_ok_iff.mp h
  obtain ⟨item, -, rfl⟩ := List.mem_map.mp hp
  exact encode_decode_portInput hrst

/-- Settles O55: the reader evaluated on each line. -/
theorem assemblerLineForms : Obligations.AssemblerLineForms := by
  unfold Obligations.AssemblerLineForms
  exact ⟨by decide, by decide, by decide, by decide, by decide, by decide, by decide, by decide, by decide, by decide,
    by decide, by decide, by decide⟩

end Sys2Proof.Machine
end
